-- ==== Sys2Proof/Word.lean ====
section
/-! DEFINITION. The two word widths of the part: a byte of a frame and a two-byte field or counter. -/

namespace Sys2Proof

/-- A byte: a character of a frame, a text code, a generation (R5). -/
abbrev Byte := BitVec 8

/-- A two-byte value that wraps or is read whole: the frame counter (R155), the notice mask (R184). -/
abbrev Half := BitVec 16

end Sys2Proof
end

