-- ==== Sys2Proof/Syntax.lean ====
section
/-! DEFINITION. The commands of the part: one constructor for each row of spec/opcode_table.json.
A host request (rows of the request codes of 11.4) takes no operand: it executes the frame at the head of the
request queue, whose body carries its fields (R182). A row by which a block takes a message names only the channel. -/

namespace Sys2Proof

/-- A control port, 0..3 (R96). -/
abbrev PortNo := Fin 4
/-- A head link, 0..3 (R164). -/
abbrev HeadNo := Fin 4
/-- A cue timer, 0..5 (R148). -/
abbrev TimerNo := Fin 6

/-- One character received on a serial line: its 8 data bits and whether its stop bit was good (R178, R189, R190). -/
structure LineChar where
  byte : Byte
  stop : Bool
  deriving DecidableEq, Repr

/-- The commands. -/
inductive Instr where
  /-- POWER_ON_RESET (R187): RESET held low or supply start brings every block to its power-on values, and the Link Controller samples the RATE pins. -/
  | powerOnReset (rate1 : Bool) (rate0 : Bool)
  /-- CHECKED_FRAME (R181): A host frame that arrives whole with a good CRC-8 joins the request queue, or gets a Busy reply, or is discarded as OVERRUN. -/
  | checkedFrame (chars : List LineChar)
  /-- RECEIVE_FAULT (R180): A LENGTH, STOP_BIT or CHECK fault ends the frame under way, overwrites the last link error and raises Link Fault. -/
  | receiveFault (chars : List LineChar)
  /-- FRAME_TIMEOUT (R180): More than 5 ms passes between characters of a host frame, so the frame is discarded with a TIMEOUT fault and Link Fault is raised. -/
  | frameTimeout
  /-- UNKNOWN_REQUEST (R182): An executed frame whose kind the part does not know is answered with status Unknown, and no block sees it. -/
  | unknownRequest
  /-- TRANSMIT_NEXT (R183): When the transmitter falls free it sends the head reply or, failing that, the oldest notice, sampling the notice body as it begins. -/
  | transmitNext
  /-- RESET_TAKES_EFFECT (R186): Once transmission of a Reset's Done ends, every block the scope names takes its reset values in one step. -/
  | resetTakesEffect
  /-- OPEN_STORY (R24): Opens a load on a FREE slot, writing a LOADING descriptor. -/
  | openStory
  /-- APPEND_LINE (R25): Adds one checked line record at the tail of the story of the open load. -/
  | appendLine
  /-- CLOSE_STORY_COMMIT (R26): Makes the loading story READY, closes the load and reports any change of standing. -/
  | closeStoryCommit
  /-- CLOSE_STORY_ABANDON (R27): Discards the loading story, returns its blocks, removes its entry and closes the load. -/
  | closeStoryAbandon
  /-- FREE_STORY (R36): Discards a spare READY story, returning its blocks and sending a delete report. -/
  | freeStory
  /-- SET_STORY (R37): Rewrites a READY story's access, limit and slug, clears its history and sends the reports for the change of access. -/
  | setStory
  /-- QUERY_STORY (R38): Replies with a slot's descriptor and its running-order entry. -/
  | queryStory
  /-- QUERY_STORE (R14): Replies with the free count, the low threshold and the line count of the open load. -/
  | queryStore
  /-- PLACE_ENTRY (R32): Adds a running-order entry for a slot before a given index. -/
  | placeEntry
  /-- MOVE_ENTRY (R33): Moves a running-order entry from one index to another. -/
  | moveEntry
  /-- REMOVE_ENTRY (R34): Removes a running-order entry, making its story spare. -/
  | removeEntry
  /-- FLOAT_ENTRY (R35): Sets or clears the floated flag of a running-order entry. -/
  | floatEntry
  /-- QUERY_ORDER (R38): Replies with the running order, the open load slot, the last aired slot and the last changed slot. -/
  | queryOrder
  /-- INSERT_LINE (R47): Edit that takes a block and places a new line before the index at, after the checks and the protection step. -/
  | insertLine
  /-- REPLACE_LINE (R48): Edit that rewrites the block at an index in place and sends Line Rewritten to the Cue Monitor. -/
  | replaceLine
  /-- DELETE_LINES (R49): Edit that removes a run of 1..32 lines and returns their blocks to the pool. -/
  | deleteLines
  /-- READ_LINE (R52): Replies with the line record and generation of the block at an index. -/
  | readLine
  /-- QUERY_FAULT (R61): Replies with the edit fault record and the watch record. -/
  | queryFault
  /-- CLEAR_FAULT (R59): Clears the frozen flag and empties the edit fault record. -/
  | clearFault
  /-- DESIGNATION_REPORT (R20): The Script Table sets the aired flag of a newly designated READY story and raises Story Aired. -/
  | designationReport
  /-- AIR_FRAME_REPORT (R23): The Script Table adds 1, saturating, to the air frames of the named READY story. -/
  | airFrameReport
  /-- RUN (R78): Starts the scroll moving toward the target velocity by way of the ramp. -/
  | run
  /-- STOP (R79): Brings the scroll to rest along the ramp by entering STOPPING. -/
  | stop
  /-- HALT (R80): Stops the scroll at once with halt cause REQUEST. -/
  | halt
  /-- STEP (R81): Moves the reading line by a signed count of whole lines at the step speed. -/
  | step
  /-- GO_TO (R82): Jumps or glides the reading line to the start of a named line. -/
  | goTo
  /-- SET_SPEED (R84): Sets the target velocity for the desk source when the desk source holds the drive. -/
  | setSpeed
  /-- SET_MOTION (R70): Replaces the motion settings, cutting the target and the velocity to a lower max speed. -/
  | setMotion
  /-- SET_PREVIEW (R67): Sets the preview position to a block of a READY story, or to VOID. -/
  | setPreview
  /-- QUERY_MOTION (R93): Replies with the positions, velocity, target, motion state, step or glide target, holder and settings. -/
  | queryMotion
  /-- FRAME_ADVANCE (R71): At a frame start the Scroll Engine reports air time, advances the position by the new velocity and publishes. -/
  | frameAdvance
  /-- INSERT_REPORT (R88): The Scroll Engine takes an insert report and leaves every position where it is. -/
  | insertReport
  /-- DELETE_REPORT (R89): The Scroll Engine moves the live position, the preview or a target out of a deleted run. -/
  | deleteReport
  /-- STORY_INELIGIBLE_REPORT (R90): The Scroll Engine relocates the live position out of a story that has left the scroll and halts a moving scroll with cause SCRIPT_CHANGE. -/
  | storyIneligibleReport
  /-- STORY_ELIGIBLE_REPORT (R66): The Scroll Engine moves a VOID live position to the first eligible story. -/
  | storyEligibleReport
  /-- ORDER_CHANGED_REPORT (R88): The Scroll Engine takes an order changed report and leaves every position where it is. -/
  | orderChangedReport
  /-- SET_TARGET (R85): A holder's target input sets the target velocity, cut to the max speed, and ends a glide. -/
  | setTarget
  /-- START_STOP_KEY (R86): A holder's start/stop key press changes the motion state as the table of section 4.5 gives. -/
  | startStopKey
  /-- JOG (R87): A holder's jog displaces the live position directly, with a FIRE passage check. -/
  | jog
  /-- STOP_EXPIRY_ACTION (R79): The STOP expiry action of a cue timer reaches the Scroll Engine and acts as a Stop, with no reply. -/
  | stopExpiryAction
  /-- SET_DRIVE_MODE (R132): Takes a new drive mode and works out the bars again. -/
  | setDriveMode
  /-- SET_PORT_CLASS (R133): Gives a port the OPERATOR or PRESENTER class. -/
  | setPortClass
  /-- PIN_DRIVE (R131): Sets, moves or clears the pin on a port. -/
  | pinDrive
  /-- CLAIM_DRIVE (R129): The desk claim stands and the desk source takes the drive, preempting any holding port. -/
  | claimDrive
  /-- RELEASE_DRIVE (R130): Clears the desk claim and releases the drive. -/
  | releaseDrive
  /-- QUERY_DRIVE (R135): Replies with the arbiter's state. -/
  | queryDrive
  /-- CLAIM (R123): The arbiter takes a port's Claim: it sets the active flag and grants, preempts or queues. -/
  | claim (p : PortNo)
  /-- IDLE (R127): The arbiter takes a port's Idle: it clears the active flag and releases the drive or the waiting place. -/
  | idle (p : PortNo)
  /-- PORT_READY (R126): The arbiter records a port as ENABLED and grants a pinned port if the drive is free. -/
  | portReady (p : PortNo)
  /-- PORT_GONE (R126): The arbiter records a port as not ENABLED and releases its drive or its waiting place. -/
  | portGone (p : PortNo)
  /-- PASS_HOLDER_INPUT (R126): The arbiter passes a port's Set Target, START_STOP press or jog to the Scroll Engine if the port holds the drive, and discards it if not. -/
  | passHolderInput (p : PortNo)
  /-- STANDING_REPORT (R121): A port takes its new drive state and class, setting its pickup state on a grant and recomputing its lamp. -/
  | standingReport (p : PortNo)
  /-- ENABLE_PORT (R102): An ATTACHED port enters ENABLED and sends Port Ready. -/
  | enablePort
  /-- DISABLE_PORT (R102): An ENABLED port enters ATTACHED and sends Port Gone. -/
  | disablePort
  /-- RESET_PORT (R103): Performs a virtual disconnect of a port and starts its 100 ms hold-off. -/
  | resetPort
  /-- SET_PORT (R115): Replaces a port's common settings and, optionally, one kind's settings. -/
  | setPort
  /-- SET_LAMP (R114): Sets a lamp override pattern or returns the lamp to AUTO. -/
  | setLamp
  /-- QUERY_PORT (R116): Replies with a port's state and then, as a second QUERY_PORT, clears the acknowledged change flags,
  so that other events can be taken in between (log 42). -/
  | queryPort
  /-- PRESENCE_FOUND (R98): PRS present for 20 ms at a DETACHED port with its hold-off over turns the supply on and enters IDENTIFYING. -/
  | presenceFound (p : PortNo)
  /-- PRESENCE_LOST (R98): PRS absent for 20 ms turns the supply off and enters DETACHED. -/
  | presenceLost (p : PortNo)
  /-- HOLD_OFF_END (R103): The 100 ms hold-off after a virtual disconnect ends, and the port watches PRS again. -/
  | holdOffEnd (p : PortNo)
  /-- OVERCURRENT (R100): OVC reporting overcurrent cuts the supply, and the port enters FAULTED with cause SUPPLY. -/
  | overcurrent (p : PortNo)
  /-- POLL (R97): Every 10 ms the port closes the previous poll as answered or unanswered, then sends a Poll carrying the lamp output. -/
  | poll (p : PortNo)
  /-- SILENCE_FAULT (R100): The silence count reaches 10 in IDENTIFYING or 5 in ATTACHED or ENABLED, so the port enters FAULTED with cause SILENT. -/
  | silenceFault (p : PortNo)
  /-- HELLO (R99): A Hello naming a known kind sets the port's kind and attaches it, or restarts it if it is already attached. -/
  | hello (p : PortNo) (chars : List LineChar)
  /-- DATA_REPORT (R105): A data report of the port's kind updates the strip baselines, is judged for activity, and may send a Claim and input. -/
  | dataReport (p : PortNo) (chars : List LineChar)
  /-- RELEASE_TIME_REACHED (R105): The idle count reaches the release time with the idle-sent flag clear, so the port sends Idle to the arbiter. -/
  | releaseTimeReached (p : PortNo)
  /-- LAMP_FLASH (R113): A port sets its flash on, and a PRESENTER lamp in AUTO plays 5/5. -/
  | lampFlash (p : PortNo)
  /-- LAMP_FLASH_END (R113): A port sets its flash off and returns to its automatic pattern. -/
  | lampFlashEnd (p : PortNo)
  /-- CUE_FRAME_START (R150): At a frame start the Cue Monitor lowers its flash and cue flag counts and counts the running timers down. -/
  | cueFrameStart
  /-- FLASH_COUNT_END (R145): The flash count reaches 0, and Lamp Flash End is sent to the ports. -/
  | flashCountEnd
  /-- CUE_FLAG_COUNT_END (R145): The cue flag count reaches 0, and Cue Flag End is sent to the Head Links. -/
  | cueFlagCountEnd
  /-- TIMER_EXPIRY (R151): A cue timer's count reaches 0: it joins the expired set, Timer Expired is raised, the action is performed and the mode is applied. -/
  | timerExpiry (n : TimerNo)
  /-- POSITION_JUMPED (R139): The Cue Monitor rebuilds its queue against the live position after a jump. -/
  | positionJumped
  /-- LINE_REWRITTEN (R139): The Cue Monitor rebuilds its queue after a Replace Line. -/
  | lineRewritten
  /-- SCRIPT_CHANGE_REPORT (R139): The Cue Monitor takes a script-change report and rebuilds its queue against the live position. -/
  | scriptChangeReport
  /-- QUERY_CUES (R147): Replies with the cue queue, the last fired record and the two frame counts. -/
  | queryCues
  /-- SKIP_CUE (R146): Sets the queue entry at an index to SKIPPED. -/
  | skipCue
  /-- SET_TIMER (R148): Replaces a cue timer's mode, reload value and expiry action. -/
  | setTimer
  /-- START_TIMER (R149): Loads a timer's count from its reload value and sets it running. -/
  | startTimer
  /-- STOP_TIMER (R149): Clears a timer's running flag and keeps its count. -/
  | stopTimer
  /-- QUERY_TIMERS (R152): Replies with the six timers and the expired set. -/
  | queryTimers
  /-- FREE_RUN_FRAME_START (R156): P + trim after the last frame start in FREE, HUNTING or LOST, the Frame Clock makes a frame start and delivers it. -/
  | freeRunFrameStart
  /-- REFERENCE_PULSE (R159): A rising edge on REF in mode LOCK is judged for lock, or starts a frame when LOCKED. -/
  | referencePulse
  /-- FLYWHEEL_FRAME (R160): In LOCKED, when no pulse has started a frame by P + P/4, a flywheel frame starts and the third one makes the state LOST. -/
  | flywheelFrame
  /-- SET_FRAME (R157): Takes a new frame period and trim, restarting hunting on a change of period in LOCK. -/
  | setFrame
  /-- SET_REFERENCE (R158): Takes reference mode FREE or LOCK. -/
  | setReference
  /-- QUERY_FRAME (R162): Replies with the Frame Clock's state. -/
  | queryFrame
  /-- VIEW_BUILD (R168): An UP and enabled Head Link takes a publish, builds a row table and view record, enters it in its history and lists it for transmission. -/
  | viewBuild (h : HeadNo)
  /-- HEAD_READY (R164): A READY frame brings a DOWN link UP, or restarts the silence time of an UP link. -/
  | headReady (h : HeadNo) (chars : List LineChar)
  /-- FETCH (R173): A FETCH frame is answered from the named view's row table with TEXT, CHANGED, EXPIRED, GAP or BLANK. -/
  | fetch (h : HeadNo) (chars : List LineChar)
  /-- HEAD_FRAME_DISCARD (R190): A head frame that is cut short, has a bad check, an unknown kind or a wrong body length is discarded. -/
  | headFrameDiscard (h : HeadNo) (chars : List LineChar)
  /-- HEAD_SILENCE_TIMEOUT (R164): 300 ms without a frame from the renderer takes the link DOWN and empties its history. -/
  | headSilenceTimeout (h : HeadNo)
  /-- HEAD_TRANSMIT (R165): The head link sends the next frame on its transmit list, a view record or a fetch reply. -/
  | headTransmit (h : HeadNo)
  /-- CUE_FLAG (R175): A Head Link sets its cue flag standing. -/
  | cueFlag (h : HeadNo)
  /-- CUE_FLAG_END (R175): A Head Link clears its cue flag. -/
  | cueFlagEnd (h : HeadNo)
  /-- SET_HEAD (R167): Replaces a head's view settings. -/
  | setHead
  /-- QUERY_HEAD (R176): Replies with a head's link state, settings, cue flag and history frame numbers. -/
  | queryHead
  /-- IDENTIFY (R185): Replies with the part code, revision, sizes, rate, notice mask and last link error. -/
  | identify
  /-- SET_NOTICES (R184): Replaces the notice mask and passes a new low threshold to the Text Store. -/
  | setNotices
  /-- RESET (R186): Accepts a reset scope, places Done and holds back further execution until the reset takes effect. -/
  | reset
  deriving DecidableEq, Repr

end Sys2Proof
end

