-- ==== Sys2Proof/Config.lean ====
section
/-! DEFINITION. The fixed sizes and times of the part, and the free values: what the spec leaves open. -/

namespace Sys2Proof.Config

/-- Line blocks of the Text Store (R1). -/
def blocks : Nat := 8192
/-- Margin of the re-arm level over the low threshold (R11). -/
def rearmMargin : Nat := 64
/-- Greatest count of entries of the cue queue (R138). -/
def cueDepth : Nat := 16
/-- Depth of the request queue (R181). -/
def requestDepth : Nat := 4
/-- Greatest count of Busy replies held (R181). -/
def busyDepth : Nat := 3
/-- Depth of the reply queue (R182). -/
def replyDepth : Nat := 4
/-- Greatest count of fetch replies on a head's transmit list (R165). -/
def fetchDepth : Nat := 16
/-- Microseconds between Polls (R97). -/
def pollTime : Nat := 10000
/-- Microseconds of unbroken presence or absence that count (R98). -/
def presenceTime : Nat := 20000
/-- Microseconds of hold-off after a virtual disconnect (R103). -/
def holdOffTime : Nat := 100000
/-- Microseconds after which a frame under way is given up (R180, R190). -/
def characterGap : Nat := 5000
/-- Microseconds of silence that take a head link DOWN (R164). -/
def headSilence : Nat := 300000
/-- Frames of flashing of the LAMP expiry action (R151). -/
def lampActionFrames : Nat := 25

/-- Free value: the byte a Query Story reply carries as the entry index of a slot without an entry (R38; log 16). -/
opaque noEntryIndex : Byte
/-- Free value: the byte it carries there as the floated flag (R38; log 16). -/
opaque noEntryFloated : Byte
/-- Free value: the byte it carries there as the standing (R38; log 16). -/
opaque noEntryStanding : Byte
/-- Free value: the byte a Query Motion reply carries as the frames left beside a step target (R93; log 46). -/
opaque stepFramesLeft : Byte
/-- Free value: the byte a body carries as the slot of a block that no line list holds (R65, R69; log 51). -/
opaque noPlaceSlot : Byte
/-- Free value: the line index it carries there (R65, R69; log 51). -/
opaque noPlaceLine : Half

end Sys2Proof.Config
end

