-- ==== Sys2Proof/Machine/State.lean ====
section
/-! DEFINITION. Everything the spec gives the part, block by block, as plain data, and its power-on values. -/

namespace Sys2Proof.Machine

/-- Story slot, 0..63 (R17). -/
abbrev Slot := Fin 64

/-! ### Text Store (chapter 1) -/

/-- How a line is drawn (R2). -/
inductive Style where | spoken | emphasis | direction
  deriving DecidableEq, Repr

/-- Marker kinds (R2). -/
inductive MarkerKind where | pause | note | timerStart | timerStop | lamp | headFlag
  deriving DecidableEq, Repr

/-- A marker: kind and parameter 0..255 (R2). -/
structure Marker where
  kind : MarkerKind
  param : Nat
  deriving DecidableEq, Repr

/-- A line record (R2). -/
structure LineRecord where
  text : List Byte
  style : Style
  marker : Option Marker
  deriving DecidableEq, Repr

/-- A line block: its generation, and its record when in use (R1, R5). -/
structure LineBlock where
  gen : Byte
  record : Option LineRecord
  deriving DecidableEq, Repr

/-- The Text Store. `blocks` lists, by rising number, the blocks that differ from their power-on value. -/
structure TextStore where
  blocks : List (Nat × LineBlock)
  pool : List Nat
  threshold : Nat
  armed : Bool
  deriving DecidableEq, Repr

/-! ### Script Table (chapters 2 and 3) -/

/-- Story states (R17). -/
inductive StoryState where | free | loading | ready
  deriving DecidableEq, Repr

/-- Access codes (R17, R19). -/
inductive Access where | opened | watched | fixed | closed
  deriving DecidableEq, Repr

/-- A story descriptor (R17). The line count is the length of `lines`. -/
structure Story where
  state : StoryState
  access : Access
  limit : Nat
  lines : List Nat
  slug : List Byte
  aired : Bool
  changed : Bool
  airFrames : Nat
  deriving DecidableEq, Repr

/-- A running-order entry (R29). -/
structure Entry where
  slot : Slot
  floated : Bool
  deriving DecidableEq, Repr

/-- Standing of a running-order entry (R31). -/
inductive Standing where | eligible | passed | gap
  deriving DecidableEq, Repr

/-- The three edits (R54, R57). -/
inductive EditKind where | insert | replace | delete
  deriving DecidableEq, Repr

/-- A cause set of the protection step (R45). -/
structure Causes where
  fixed : Bool
  closed : Bool
  limit : Bool
  storeFull : Bool
  deriving DecidableEq, Repr

/-- The edit fault record (R57). -/
structure FaultRecord where
  causes : Causes
  kind : EditKind
  slot : Slot
  line : Nat
  frame : Half
  deriving DecidableEq, Repr

/-- The watch record (R54). -/
structure WatchRecord where
  kind : EditKind
  slot : Slot
  line : Nat
  change : Int
  frame : Half
  deriving DecidableEq, Repr

/-- The Script Table. `fault` is present exactly while the frozen flag is set (R57). -/
structure ScriptTable where
  stories : Vector Story 64
  order : List Entry
  load : Option Slot
  lastAired : Option Slot
  lastChanged : Option Slot
  fault : Option FaultRecord
  watch : Option WatchRecord
  deriving DecidableEq, Repr

/-- Script-change reports (R39). -/
inductive ScriptReport where
  | insert (slot : Slot) (index block : Nat)
  | delete (slot : Slot) (first : Nat) (blocks : List Nat)
  | ineligible (slot : Slot) (index : Nat)
  | eligible (slot : Slot)
  | orderChanged
  deriving DecidableEq, Repr

/-! ### Scroll Engine (chapter 4) -/

/-- A position that is not VOID (R65). -/
structure Pos where
  block : Nat
  sub : Nat
  deriving DecidableEq, Repr

/-- Motion states (R69). -/
inductive Motion where | halted | running | stopping | stepping | gliding
  deriving DecidableEq, Repr

/-- Halt causes (R69). -/
inductive HaltCause where
  | powerOn | request | endOfScript | gap | marker | stepDone | arrived | scriptChange | reset
  deriving DecidableEq, Repr

/-- A step target, or a glide target with its frames left (R81, R83). -/
structure Goal where
  glide : Bool
  block : Nat
  framesLeft : Nat
  deriving DecidableEq, Repr

/-- Motion settings (R70). -/
structure MotionSettings where
  maxSpeed : Nat
  accel : Nat
  stepSpeed : Nat
  stepKeys : Bool
  deriving DecidableEq, Repr

/-- The Scroll Engine. `liveSlot` is the story the live position designates (R66). -/
structure Engine where
  live : Option Pos
  liveSlot : Option Slot
  preview : Option Nat
  motion : Motion
  velocity : Int
  target : Int
  haltCause : HaltCause
  haltFrame : Half
  goal : Option Goal
  settings : MotionSettings
  deriving DecidableEq, Repr

/-- A published position record (R77). -/
structure Publish where
  frame : Half
  live : Option Pos
  liveAt : Option (Slot × Nat)
  preview : Option Nat
  previewAt : Option (Slot × Nat)
  motion : Motion
  deriving DecidableEq, Repr

/-! ### Drive Arbiter (chapter 6) -/

/-- A source that can hold the drive (R119). -/
inductive Source where
  | port (p : PortNo)
  | desk
  deriving DecidableEq, Repr

/-- Port classes (R119). -/
inductive PortClass where | operator | presenter
  deriving DecidableEq, Repr

/-- Drive modes (R119). -/
inductive DriveMode where | operatorOnly | presenterOnly | operatorFirst | equal
  deriving DecidableEq, Repr

/-- A port's standing toward the drive (R119). -/
inductive DriveState where | idle | waiting | holding | barred
  deriving DecidableEq, Repr

/-- The Drive Arbiter. `joined` holds the waiting ports in the order in which they joined (R122). -/
structure Arbiter where
  holder : Option Source
  deskClaim : Bool
  pin : Option PortNo
  mode : DriveMode
  classes : Vector PortClass 4
  enabled : Vector Bool 4
  active : Vector Bool 4
  driveStates : Vector DriveState 4
  joined : List PortNo
  deriving DecidableEq, Repr

/-! ### Control Ports (chapter 5) -/

/-- Port states (R96). -/
inductive PortState where | detached | identifying | attached | enabled | faulted
  deriving DecidableEq, Repr

/-- Fault causes (R96). -/
inductive FaultCause where | supply | silent
  deriving DecidableEq, Repr

/-- Controller kinds (R96). -/
inductive Kind where | wheel | strip | pedal
  deriving DecidableEq, Repr

/-- Pickup states (R96). -/
inductive Pickup where | waiting | pickedUp
  deriving DecidableEq, Repr

/-- WHEEL styles (R115). -/
inductive WheelStyle where | speed | jog
  deriving DecidableEq, Repr

/-- STRIP styles (R115). -/
inductive StripStyle where | hold | zero
  deriving DecidableEq, Repr

/-- The common settings record (R115). -/
structure CommonSettings where
  autoEnable : Bool
  releaseTime : Nat
  tolerance : Nat
  deriving DecidableEq, Repr

/-- The WHEEL settings record (R115). -/
structure WheelSettings where
  style : WheelStyle
  speedStep : Nat
  jogSize : Nat
  deriving DecidableEq, Repr

/-- The STRIP settings record (R115). -/
structure StripSettings where
  style : StripStyle
  threshold : Nat
  gain : Nat
  deriving DecidableEq, Repr

/-- The PEDAL settings record (R115). -/
structure PedalSettings where
  deadBand : Nat
  gain : Nat
  deriving DecidableEq, Repr

/-- A lamp pattern: on-time and off-time in polls (R112). -/
structure Pattern where
  on : Nat
  off : Nat
  deriving DecidableEq, Repr

/-- The receiver of a control port line: hunting for the start byte, or in a frame (R189). -/
inductive PortRx where
  | hunting
  | kind
  | body (kind : Byte) (got : List Byte)
  deriving DecidableEq, Repr

/-- A control port (R96), with the model's working state for polls and presence (log 23). `ackDue` is the acknowledge
set of a Query Port that has been sampled and whose flags are not cleared yet (R116; log 42). -/
structure Port where
  state : PortState
  fault : Option FaultCause
  kind : Option Kind
  connectChange : Bool
  enableChange : Bool
  faultChange : Bool
  supply : Bool
  silence : Nat
  holdOff : Option Nat
  common : CommonSettings
  wheel : WheelSettings
  strip : StripSettings
  pedal : PedalSettings
  baselines : Vector Nat 5
  sums : Vector Nat 5
  acquired : Nat
  reverse : Bool
  mapped : Option Int
  prevMapped : Option Int
  pickup : Pickup
  lastSent : Option Int
  idle : Nat
  idleSent : Bool
  drive : DriveState
  cls : PortClass
  lampOverride : Option Pattern
  pattern : Pattern
  phase : Nat
  flash : Bool
  watchFrom : Nat
  nextPoll : Nat
  answered : Bool
  releaseDue : Bool
  rx : PortRx
  pollOut : List Byte
  ackDue : Option Byte
  deriving DecidableEq, Repr

/-- What a control port sends the arbiter, in order (R104, R105, R106). -/
inductive PortMsg where
  | claim
  | idle
  | ready
  | gone
  | setTarget (v : Int)
  | key
  | jog (d : Int)
  deriving DecidableEq, Repr

/-- Holder input the arbiter passes to the Scroll Engine (R126). -/
inductive HolderInput where
  | setTarget (v : Int)
  | key
  | jog (d : Int)
  deriving DecidableEq, Repr

/-! ### Cue Monitor (chapter 7) -/

/-- An entry of the cue queue (R138). -/
structure CueEntry where
  block : Nat
  kind : MarkerKind
  param : Nat
  skipped : Bool
  deriving DecidableEq, Repr

/-- The last fired record (R144). -/
structure FiredRecord where
  slot : Slot
  line : Nat
  kind : MarkerKind
  param : Nat
  frame : Half
  deriving DecidableEq, Repr

/-- Timer modes (R148). -/
inductive TimerMode where | oneShot | reload | chained
  deriving DecidableEq, Repr

/-- Expiry actions (R148). -/
inductive ExpiryAction where | none | stop | lamp
  deriving DecidableEq, Repr

/-- A cue timer (R148). -/
structure Timer where
  mode : TimerMode
  reload : Nat
  count : Nat
  running : Bool
  action : ExpiryAction
  deriving DecidableEq, Repr

/-- The Cue Monitor. The last three fields are the unfinished work of a frame start (R145, R150; log 10). -/
structure CueMonitor where
  queue : List CueEntry
  lastFired : Option FiredRecord
  flashCount : Nat
  flagCount : Nat
  timers : Vector Timer 6
  expired : Byte
  flashEndDue : Bool
  flagEndDue : Bool
  expiring : List TimerNo
  deriving DecidableEq, Repr

/-- What the Script Table sends the Cue Monitor (R39, R48). -/
inductive CueMsg where
  | report (r : ScriptReport)
  | rewritten (slot : Slot) (block : Nat)
  deriving DecidableEq, Repr

/-! ### Frame Clock (chapter 8) -/

/-- Reference modes (R155). -/
inductive RefMode where | free | lock
  deriving DecidableEq, Repr

/-- Lock states (R155). -/
inductive LockState where | free | hunting | locked | lost
  deriving DecidableEq, Repr

/-- Reference events (R155). -/
inductive RefEvent where | found | lost
  deriving DecidableEq, Repr

/-- The Frame Clock. `interval` is P + trim as they stood at the last frame start (R156). -/
structure FrameClock where
  period : Nat
  trim : Int
  mode : RefMode
  lock : LockState
  counter : Half
  lastStart : Nat
  interval : Nat
  lastPulse : Option Nat
  goodRun : Nat
  flywheel : Nat
  event : Option RefEvent
  deriving DecidableEq, Repr

/-! ### The link receiver, shared by the host link and the head links (R179, R190) -/

/-- Receiver state: hunting, after the start byte, or collecting `n` bytes of kind and body and the check. -/
inductive RxState where
  | hunting
  | length
  | collecting (n : Nat) (got : List Byte)
  deriving DecidableEq, Repr

/-- A receiver and the time of the last character of the frame under way. -/
structure LinkRx where
  state : RxState
  lastAt : Nat
  deriving DecidableEq, Repr

/-! ### Head Links (chapter 9) -/

/-- View sources (R166). -/
inductive HeadSource where | live | preview
  deriving DecidableEq, Repr

/-- View settings (R166). -/
structure ViewSettings where
  enable : Bool
  source : HeadSource
  mirror : Bool
  rows : Nat
  readingRow : Nat
  deriving DecidableEq, Repr

/-- Row table entries (R169). -/
inductive RowEntry where
  | line (block : Nat) (gen : Byte)
  | gap
  | blank
  deriving DecidableEq, Repr

/-- The holder's class as the arbiter answers it (R126, R168); none is `Option.none`. -/
inductive HolderClass where | operator | presenter | desk
  deriving DecidableEq, Repr

/-- A view record with its row table (R168, R172). -/
structure View where
  frame : Half
  source : HeadSource
  slug : List Byte
  offset : Nat
  rows : Nat
  readingRow : Nat
  stopped : Bool
  cue : Bool
  mirror : Bool
  holderClass : Option HolderClass
  table : List RowEntry
  deriving DecidableEq, Repr

/-- Outcomes of a fetch (R173). -/
inductive FetchOutcome where
  | text (gen : Byte) (record : LineRecord)
  | changed
  | expired
  | gap
  | blank
  deriving DecidableEq, Repr

/-- Frames a head link sends (R165). -/
inductive HeadFrame where
  | view (v : View)
  | reply (frame : Half) (row : Nat) (outcome : FetchOutcome)
  deriving DecidableEq, Repr

/-- A Head Link. The silence time is `now - silentSince` (R164). -/
structure Head where
  up : Bool
  silentSince : Nat
  settings : ViewSettings
  history : List View
  queue : List HeadFrame
  sending : Option HeadFrame
  cueFlag : Bool
  rx : LinkRx
  deriving DecidableEq, Repr

/-! ### Link Controller (chapter 10) -/

/-- Notices, in the order of their codes from 0xE0 (11.5). -/
inductive Notice where
  | scrollHalted | driveChanged | portChanged | cueFired | timerExpired | editFault | editWatch
  | storyAired | changedAfterAir | reference | storeLow | linkFault | headChanged
  deriving DecidableEq, Repr

/-- Causes of the last link error (R180, R181). -/
inductive LinkErrorCause where | check | stopBit | timeout | length | overrun
  deriving DecidableEq, Repr

/-- A reset scope: any of SCRIPT, MOTION, PORTS, HEADS, or ALL (R186). -/
structure Scope where
  script : Bool
  motion : Bool
  ports : Bool
  heads : Bool
  all : Bool
  deriving DecidableEq, Repr

/-- A reply: its kind byte and body; `isReset` marks the Done of an accepted Reset (R186). -/
structure Reply where
  kind : Byte
  body : List Byte
  isReset : Bool
  deriving DecidableEq, Repr

/-- A checked frame awaiting execution, with the Busy replies attached to it (R181). -/
structure Request where
  kind : Byte
  body : List Byte
  busy : List Reply
  deriving DecidableEq, Repr

/-- The Link Controller. -/
structure LinkController where
  requests : List Request
  replies : List Reply
  notices : List Notice
  mask : Half
  lastError : Option (LinkErrorCause × Half)
  rx : LinkRx
  sending : Option Reply
  resetScope : Option Scope
  rate : Nat
  deriving DecidableEq, Repr

/-! ### Messages between blocks -/

/-- Internal reports of the Scroll Engine to the Script Table (R20, R23). -/
inductive ScriptMsg where
  | designation (slot : Slot)
  | airFrame (slot : Slot)
  deriving DecidableEq, Repr

/-- A message in flight; `req` says that it goes back to the last request (R182). -/
structure Msg (α : Type) where
  req : Bool
  body : α
  deriving DecidableEq, Repr

/-- The messages sent and not yet taken, oldest first, one FIFO for each sender and receiver (log 1). -/
structure Mail where
  toScript : List (Msg ScriptMsg)
  engineReports : List (Msg ScriptReport)
  engineFrames : List (Msg Half)
  engineStops : List (Msg Unit)
  engineInput : List (Msg HolderInput)
  cueReports : List (Msg CueMsg)
  cueJumps : List (Msg Unit)
  cueFrames : List (Msg Half)
  toArbiter : Vector (List (Msg PortMsg)) 4
  standing : Vector (List (Msg (DriveState × PortClass))) 4
  flash : Vector (List (Msg Bool)) 4
  cueFlag : Vector (List (Msg Bool)) 4
  publish : Vector (List (Msg Publish)) 4
  deriving DecidableEq, Repr

/-! ### The whole part -/

/-- The state of the part. `pending` is the queue of commands; `cause` says whether the event under way was caused
by the last request (log 7). -/
structure State where
  store : TextStore
  script : ScriptTable
  engine : Engine
  arbiter : Arbiter
  ports : Vector Port 4
  cues : CueMonitor
  clock : FrameClock
  heads : Vector Head 4
  link : LinkController
  mail : Mail
  now : Nat
  cause : Bool
  pending : List Instr
  deriving DecidableEq, Repr

/-- Faults: none. The spec describes no event that stops the part (a receive fault, a FAULTED port, a refused request
and the edit fault record are all changes of state), so no command of this model ends in a fault. -/
inductive Fault where
  deriving DecidableEq, Repr

/-- Refusals. -/
inductive Refusal where
  /-- Raised by exec for a command without a meaning; no arm of exec raises it now. Safe. -/
  | notModelled (mnemonic : String)
  deriving DecidableEq, Repr

/-! ### Power-on values -/

/-- A line block never written: free, no record, generation 0 (R15); what an unlisted block is. -/
def LineBlock.blank : LineBlock := { gen := 0, record := none }

/-- R15. -/
def TextStore.reset : TextStore :=
  { blocks := [], pool := List.range Config.blocks, threshold := 256, armed := true }

/-- The FREE values of a descriptor (R17). -/
def Story.free : Story :=
  { state := .free, access := .opened, limit := 0, lines := [], slug := [], aired := false, changed := false,
    airFrames := 0 }

/-- R41, R63. -/
def ScriptTable.reset : ScriptTable :=
  { stories := Vector.replicate 64 Story.free, order := [], load := none, lastAired := none, lastChanged := none,
    fault := none, watch := none }

/-- The default settings of R70. -/
def MotionSettings.default : MotionSettings :=
  { maxSpeed := 512, accel := 16, stepSpeed := 128, stepKeys := false }

/-- R94. -/
def Engine.reset : Engine :=
  { live := none, liveSlot := none, preview := none, motion := .halted, velocity := 0, target := 0,
    haltCause := .powerOn, haltFrame := 0, goal := none, settings := .default }

/-- The default classes of R136. -/
def Arbiter.defaultClasses : Vector PortClass 4 := #v[.operator, .presenter, .presenter, .presenter]

/-- R136. -/
def Arbiter.reset : Arbiter :=
  { holder := none, deskClaim := false, pin := none, mode := .operatorFirst, classes := defaultClasses,
    enabled := Vector.replicate 4 false, active := Vector.replicate 4 false,
    driveStates := Vector.replicate 4 .idle, joined := [] }

/-- The default settings of R115. -/
def CommonSettings.default : CommonSettings := { autoEnable := true, releaseTime := 200, tolerance := 8 }
def WheelSettings.default : WheelSettings := { style := .speed, speedStep := 8, jogSize := 64 }
def StripSettings.default : StripSettings := { style := .hold, threshold := 120, gain := 8 }
def PedalSettings.default : PedalSettings := { deadBand := 12, gain := 8 }

/-- R117, for a port of the given default class. -/
def Port.reset (c : PortClass) : Port :=
  { state := .detached, fault := none, kind := none, connectChange := false, enableChange := false,
    faultChange := false, supply := false, silence := 0, holdOff := none, common := .default, wheel := .default,
    strip := .default, pedal := .default, baselines := Vector.replicate 5 0, sums := Vector.replicate 5 0,
    acquired := 0, reverse := false, mapped := none, prevMapped := none, pickup := .pickedUp, lastSent := none,
    idle := 0, idleSent := false, drive := .idle, cls := c, lampOverride := none, pattern := { on := 0, off := 0 },
    phase := 0, flash := false, watchFrom := 0, nextPoll := 0, answered := false, releaseDue := false,
    rx := .hunting, pollOut := [], ackDue := none }

/-- A timer's values in R153. -/
def Timer.reset : Timer := { mode := .oneShot, reload := 1, count := 0, running := false, action := .none }

/-- R153. -/
def CueMonitor.reset : CueMonitor :=
  { queue := [], lastFired := none, flashCount := 0, flagCount := 0, timers := Vector.replicate 6 Timer.reset,
    expired := 0, flashEndDue := false, flagEndDue := false, expiring := [] }

/-- R163, for a reset that ends at the moment `now`. -/
def FrameClock.reset (now : Nat) : FrameClock :=
  { period := 20000, trim := 0, mode := .free, lock := .free, counter := 0, lastStart := now, interval := 20000,
    lastPulse := none, goodRun := 0, flywheel := 0, event := none }

/-- The default view settings of R166 for a head. -/
def ViewSettings.default (h : HeadNo) : ViewSettings :=
  { enable := h.val == 0, source := .live, mirror := false, rows := 12, readingRow := 3 }

/-- A hunting receiver; the time of its last character counts from 0 (log 52). -/
def LinkRx.reset : LinkRx := { state := .hunting, lastAt := 0 }

/-- R177. The spec gives no receiver and no frame on the line after a power-on reset: a hunting receiver whose last
character counts from 0 and an idle transmitter are the model's choice (log 52). -/
def Head.reset (h : HeadNo) : Head :=
  { up := false, silentSince := 0, settings := .default h, history := [], queue := [], sending := none,
    cueFlag := false, rx := .reset }

/-- The mask that enables the thirteen kinds (R184, R188). -/
def allNotices : Half := 0x1FFF

/-- R187, with the rate as sampled (R178). -/
def LinkController.reset (rate : Nat) : LinkController :=
  { requests := [], replies := [], notices := [], mask := allNotices, lastError := none, rx := .reset,
    sending := none, resetScope := none, rate := rate }

/-- No message in flight. -/
def Mail.empty : Mail :=
  { toScript := [], engineReports := [], engineFrames := [], engineStops := [], engineInput := [], cueReports := [],
    cueJumps := [], cueFrames := [], toArbiter := Vector.replicate 4 [], standing := Vector.replicate 4 [],
    flash := Vector.replicate 4 [], cueFlag := Vector.replicate 4 [], publish := Vector.replicate 4 [] }

/-- The part after a power-on reset that sampled the given rate. The spec does not say whether a power-on reset sets the
count of the timebase back; the model sets it to 0, and nothing the part shows depends on it (log 3). -/
def State.powerOn (rate : Nat) : State :=
  { store := .reset, script := .reset, engine := .reset, arbiter := .reset,
    ports := #v[Port.reset .operator, Port.reset .presenter, Port.reset .presenter, Port.reset .presenter],
    cues := .reset, clock := .reset 0, heads := #v[Head.reset 0, Head.reset 1, Head.reset 2, Head.reset 3],
    link := .reset rate, mail := .empty, now := 0, cause := false, pending := [] }

/-- The part right after a power-on reset with both RATE pins low (log 4). -/
def State.reset : State := State.powerOn 0

end Sys2Proof.Machine
end

