-- ==== Sys2Proof/Machine/Operands.lean ====
section
/-! DEFINITION. The fields of frames: how values are placed in bytes and read back (chapter 11), the CRC-8, the
frames of the three kinds of line and the line record. -/

namespace Sys2Proof.Machine

/-! ### Numbers (R188) -/

/-- A number as one byte. -/
def byte (n : Nat) : Byte := BitVec.ofNat 8 n

/-- A number as two bytes, most significant first. -/
def two (n : Nat) : List Byte := [byte (n / 256), byte n]

/-- A 16-bit word as two bytes. -/
def twoOf (w : Half) : List Byte := two w.toNat

/-- A signed number as one byte, two's complement. -/
def sbyte (n : Int) : Byte := BitVec.ofInt 8 n

/-- A signed number as two bytes, two's complement. -/
def stwo (n : Int) : List Byte := twoOf (BitVec.ofInt 16 n)

/-- A flag: 0 clear, 1 set. -/
def flagByte (b : Bool) : Byte := if b then 1 else 0

/-- The byte at an offset of a body; 0 beyond its end (the Malformed check has made sure that there is none). -/
def u8 (body : List Byte) (i : Nat) : Nat := (body.getD i 0).toNat

/-- The two-byte field at an offset. -/
def u16 (body : List Byte) (i : Nat) : Nat := u8 body i * 256 + u8 body (i + 1)

/-- The signed byte at an offset. -/
def s8 (body : List Byte) (i : Nat) : Int := (body.getD i 0).toInt

/-- The signed two-byte field at an offset. -/
def s16 (body : List Byte) (i : Nat) : Int := (BitVec.ofNat 16 (u16 body i)).toInt

/-- A flag byte: 0 or 1, anything else is refused (R188). -/
def flagOf : Nat → Option Bool
  | 0 => some false
  | 1 => some true
  | _ => none

/-- The none value of a slot, a port, a holder or a class (R188). -/
def noneByte : Byte := 0xFF

/-- A slot or the none value. -/
def slotByte : Option Slot → Byte
  | some k => byte k.val
  | none => noneByte

/-! ### Enumerations, in the order of R188's table -/

def StoryState.code : StoryState → Byte
  | .free => 0 | .loading => 1 | .ready => 2

def Access.code : Access → Byte
  | .opened => 0 | .watched => 1 | .fixed => 2 | .closed => 3

def Access.ofCode : Nat → Option Access
  | 0 => some .opened | 1 => some .watched | 2 => some .fixed | 3 => some .closed | _ => none

def Style.code : Style → Byte
  | .spoken => 0 | .emphasis => 1 | .direction => 2

def Style.ofCode : Nat → Option Style
  | 0 => some .spoken | 1 => some .emphasis | 2 => some .direction | _ => none

def MarkerKind.code : MarkerKind → Byte
  | .pause => 0 | .note => 1 | .timerStart => 2 | .timerStop => 3 | .lamp => 4 | .headFlag => 5

def MarkerKind.ofCode : Nat → Option MarkerKind
  | 0 => some .pause | 1 => some .note | 2 => some .timerStart | 3 => some .timerStop | 4 => some .lamp
  | 5 => some .headFlag | _ => none

def Standing.code : Standing → Byte
  | .eligible => 0 | .passed => 1 | .gap => 2

def Motion.code : Motion → Byte
  | .halted => 0 | .running => 1 | .stopping => 2 | .stepping => 3 | .gliding => 4

def HaltCause.code : HaltCause → Byte
  | .powerOn => 0 | .request => 1 | .endOfScript => 2 | .gap => 3 | .marker => 4 | .stepDone => 5 | .arrived => 6
  | .scriptChange => 7 | .reset => 8

/-- The holder: port 0..3, DESK 4, none 0xFF. -/
def sourceCode : Option Source → Byte
  | some (.port p) => byte p.val
  | some .desk => 4
  | none => noneByte

def PortClass.code : PortClass → Byte
  | .operator => 0 | .presenter => 1

def PortClass.ofCode : Nat → Option PortClass
  | 0 => some .operator | 1 => some .presenter | _ => none

/-- The holder's class: OPERATOR, PRESENTER, DESK, none 0xFF. -/
def holderClassCode : Option HolderClass → Byte
  | some .operator => 0
  | some .presenter => 1
  | some .desk => 2
  | none => noneByte

def DriveMode.code : DriveMode → Byte
  | .operatorOnly => 0 | .presenterOnly => 1 | .operatorFirst => 2 | .equal => 3

def DriveMode.ofCode : Nat → Option DriveMode
  | 0 => some .operatorOnly | 1 => some .presenterOnly | 2 => some .operatorFirst | 3 => some .equal | _ => none

def DriveState.code : DriveState → Byte
  | .idle => 0 | .waiting => 1 | .holding => 2 | .barred => 3

def PortState.code : PortState → Byte
  | .detached => 0 | .identifying => 1 | .attached => 2 | .enabled => 3 | .faulted => 4

def faultCauseCode : Option FaultCause → Byte
  | none => 0 | some .supply => 1 | some .silent => 2

def kindCode : Option Kind → Byte
  | none => 0 | some .wheel => 1 | some .strip => 2 | some .pedal => 3

def Kind.ofCode : Nat → Option Kind
  | 1 => some .wheel | 2 => some .strip | 3 => some .pedal | _ => none

/-- Pickup states in the order of R96 (log 15). -/
def Pickup.code : Pickup → Byte
  | .waiting => 0 | .pickedUp => 1

def WheelStyle.code : WheelStyle → Byte
  | .speed => 0 | .jog => 1

def WheelStyle.ofCode : Nat → Option WheelStyle
  | 0 => some .speed | 1 => some .jog | _ => none

def StripStyle.code : StripStyle → Byte
  | .hold => 0 | .zero => 1

def StripStyle.ofCode : Nat → Option StripStyle
  | 0 => some .hold | 1 => some .zero | _ => none

def TimerMode.code : TimerMode → Byte
  | .oneShot => 0 | .reload => 1 | .chained => 2

def TimerMode.ofCode : Nat → Option TimerMode
  | 0 => some .oneShot | 1 => some .reload | 2 => some .chained | _ => none

def ExpiryAction.code : ExpiryAction → Byte
  | .none => 0 | .stop => 1 | .lamp => 2

def ExpiryAction.ofCode : Nat → Option ExpiryAction
  | 0 => some .none | 1 => some .stop | 2 => some .lamp | _ => Option.none

def RefMode.code : RefMode → Byte
  | .free => 0 | .lock => 1

def RefMode.ofCode : Nat → Option RefMode
  | 0 => some .free | 1 => some .lock | _ => none

def LockState.code : LockState → Byte
  | .free => 0 | .hunting => 1 | .locked => 2 | .lost => 3

def refEventCode : Option RefEvent → Byte
  | none => 0 | some .found => 1 | some .lost => 2

def HeadSource.code : HeadSource → Byte
  | .live => 0 | .preview => 1

def HeadSource.ofCode : Nat → Option HeadSource
  | 0 => some .live | 1 => some .preview | _ => none

def EditKind.code : EditKind → Byte
  | .insert => 0 | .replace => 1 | .delete => 2

def linkErrorCode : Option (LinkErrorCause × Half) → Byte
  | none => 0
  | some (.check, _) => 1
  | some (.stopBit, _) => 2
  | some (.timeout, _) => 3
  | some (.length, _) => 4
  | some (.overrun, _) => 5

/-- The cause set: FIXED bit 0, CLOSED bit 1, LIMIT bit 2, STORE_FULL bit 3. -/
def Causes.code (c : Causes) : Byte :=
  byte (c.fixed.toNat + 2 * c.closed.toNat + 4 * c.limit.toNat + 8 * c.storeFull.toNat)

/-- The Reset scope of a byte: SCRIPT 0, MOTION 1, PORTS 2, HEADS 3, ALL 7; none when it is empty or holds another bit
(R186). -/
def Scope.ofByte (b : Byte) : Option Scope :=
  if b = 0 ∨ b &&& 0x70 ≠ 0 then none
  else some { script := b.getLsbD 0, motion := b.getLsbD 1, ports := b.getLsbD 2, heads := b.getLsbD 3,
              all := b.getLsbD 7 }

/-! ### Statuses (11.6) -/

/-- The statuses of R182. -/
inductive Status where
  | done | malformed | range | noStory | state | denied | limit | storeFull | busy | inOrder | notHolder | gap
  | unknown
  deriving DecidableEq, Repr

def Status.code : Status → Byte
  | .done => 0 | .malformed => 1 | .range => 2 | .noStory => 3 | .state => 4 | .denied => 5 | .limit => 6
  | .storeFull => 7 | .busy => 8 | .inOrder => 9 | .notHolder => 10 | .gap => 11 | .unknown => 12

/-! ### The CRC-8 and the link frame (R179, 11.2) -/

/-- One bit of the CRC-8: polynomial x⁸ + x² + x + 1, most significant bit first (R179). -/
def crcBit (c : Byte) : Byte := if c.getLsbD 7 then (c <<< 1) ^^^ 0x07 else c <<< 1

/-- One byte of the CRC-8. -/
def crcByte (c b : Byte) : Byte := Nat.repeat crcBit 8 (c ^^^ b)

/-- The CRC-8 over bytes, initial value 0 (R179). -/
def crc8 (bytes : List Byte) : Byte := bytes.foldl crcByte 0

/-- The bytes of a host link or head link frame (11.2, R190). -/
def linkFrame (kind : Byte) (body : List Byte) : List Byte :=
  let counted := byte (body.length + 1) :: kind :: body
  0xA5 :: (counted ++ [crc8 counted])

/-- What a receiver makes of one character. -/
inductive RxEvent where
  | quiet
  | frame (kind : Byte) (body : List Byte)
  | fault (cause : LinkErrorCause)
  deriving DecidableEq, Repr

/-- The receiver takes one character (R179, R180, R190). A length byte out of range, or a wrong check byte, that also lacks
its stop bit meets two of the faults of R180: STOP_BIT is taken, the model's choice (log 49). -/
def rxTake (r : RxState) (c : LineChar) : RxState × RxEvent :=
  match r with
  | .hunting => if c.stop ∧ c.byte = 0xA5 then (.length, .quiet) else (.hunting, .quiet)
  | .length =>
    if !c.stop then (.hunting, .fault .stopBit)
    else if c.byte = 0 ∨ 200 < c.byte.toNat then (.hunting, .fault .length)
    else (.collecting c.byte.toNat [], .quiet)
  | .collecting n got =>
    if !c.stop then (.hunting, .fault .stopBit)
    else if got.length < n then (.collecting n (got ++ [c.byte]), .quiet)
    else if crc8 (byte n :: got) = c.byte then (.hunting, .frame (got.headD 0) got.tail)
    else (.hunting, .fault .check)

/-- Characters with good stop bits. -/
def goodChars (bytes : List Byte) : List LineChar := bytes.map (fun b => { byte := b, stop := true })

/-! ### The control port frame (R189) -/

/-- The bytes of a control port frame: the kind, body and check sum to 0 modulo 256. -/
def portFrame (kind : Byte) (body : List Byte) : List Byte :=
  0xC3 :: kind :: (body ++ [0 - (kind :: body).sum])

/-- The body length of a report kind; none for a kind the port does not know as a report. -/
def reportLength (kind : Byte) : Option Nat :=
  if kind = 0x10 then some 1
  else if kind = 0x11 then some 2
  else if kind = 0x12 then some 11
  else if kind = 0x13 then some 2
  else none

/-- The receiver of a control port line takes one character; a frame comes out when one is whole with a correct
check. R189 says that a frame broken by a missing stop bit, an unknown kind or a bad check is discarded whole, not where
the receiver goes on: it hunts from the next character, the model's choice (log 43). -/
def portRxTake (r : PortRx) (c : LineChar) : PortRx × Option (Byte × List Byte) :=
  match r with
  | .hunting => if c.stop ∧ c.byte = 0xC3 then (.kind, none) else (.hunting, none)
  | .kind => if c.stop ∧ (reportLength c.byte).isSome then (.body c.byte [], none) else (.hunting, none)
  | .body kind got =>
    if !c.stop then (.hunting, none)
    else if got.length < (reportLength kind).getD 0 then (.body kind (got ++ [c.byte]), none)
    else if (kind :: got).sum + c.byte = 0 then (.hunting, some (kind, got))
    else (.hunting, none)

/-- The keys byte of a data report: START_STOP, REVERSE, CLAIM; bits 3 to 7 are ignored (R189). -/
structure Keys where
  startStop : Bool
  reverse : Bool
  claim : Bool
  deriving DecidableEq, Repr

def Keys.ofByte (b : Byte) : Keys :=
  { startStop := b.getLsbD 0, reverse := b.getLsbD 1, claim := b.getLsbD 2 }

/-- What a data report says of its control's axis and keys. -/
inductive DataReport where
  | wheel (delta : Int) (keys : Keys)
  | strip (counts : Vector Nat 5) (keys : Keys)
  | pedal (level : Nat) (keys : Keys)
  deriving DecidableEq, Repr

def DataReport.kind : DataReport → Kind
  | .wheel _ _ => .wheel
  | .strip _ _ => .strip
  | .pedal _ _ => .pedal

/-- A whole report frame: a Hello of a known kind, or a data report; every strip count is 0..4095 (R189). -/
inductive PortReport where
  | hello (k : Kind)
  | data (d : DataReport)
  deriving DecidableEq, Repr

def PortReport.ofFrame (kind : Byte) (body : List Byte) : Option PortReport :=
  if kind = 0x10 then (Kind.ofCode (u8 body 0)).map .hello
  else if kind = 0x11 then some (.data (.wheel (s8 body 0) (Keys.ofByte (body.getD 1 0))))
  else if kind = 0x12 then
    let counts : Vector Nat 5 := #v[u16 body 0, u16 body 2, u16 body 4, u16 body 6, u16 body 8]
    -- a REVERSE bit in a STRIP report is ignored
    if counts.all (· ≤ 4095) then
      some (.data (.strip counts { Keys.ofByte (body.getD 10 0) with reverse := false }))
    else none
  else if kind = 0x13 then some (.data (.pedal (u8 body 0) (Keys.ofByte (body.getD 1 0))))
  else none

/-! ### The line record (11.3, R2 to R4) -/

/-- The text codes (00_scope.md 5.4, R3). -/
def isTextCode (b : Byte) : Bool :=
  (0x20 ≤ b.toNat && b.toNat ≤ 0x7E) || 0xA0 ≤ b.toNat

/-- The parameters a marker kind accepts (R4). -/
def MarkerKind.accepts (k : MarkerKind) (param : Nat) : Bool :=
  match k with
  | .pause | .note => true
  | .timerStart | .timerStop => param ≤ 5
  | .lamp | .headFlag => 1 ≤ param

/-- The marker part of a record: presence flag, kind, parameter; none where R4 answers Range. -/
def checkMarker (presence kind param : Nat) : Option (Option Marker) :=
  match presence with
  | 0 => some none
  | 1 => match MarkerKind.ofCode kind with
    | some k => if k.accepts param then some (some { kind := k, param := param }) else none
    | none => none
  | _ => none

/-- Check Record (R3, R4) on the bytes of a record: the record, or none for Range. -/
def checkRecord (bytes : List Byte) : Option LineRecord :=
  let t := u8 bytes 0
  let text := (bytes.drop 1).take t
  if t ≤ 44 ∧ text.all isTextCode then
    match Style.ofCode (u8 bytes (t + 1)), checkMarker (u8 bytes (t + 2)) (u8 bytes (t + 3)) (u8 bytes (t + 4)) with
    | some style, some marker => some { text := text, style := style, marker := marker }
    | _, _ => none
  else none

/-- The bytes of a record (11.3). -/
def recordBytes (r : LineRecord) : List Byte :=
  byte r.text.length :: r.text ++ r.style.code ::
    (match r.marker with
     | some m => [1, m.kind.code, byte m.param]
     | none => [0, 0, 0])

/-- Whether a slug is one R24 and R37 take: at most 16 text codes. -/
def slugOk (slug : List Byte) : Bool := slug.length ≤ 16 && slug.all isTextCode

/-! ### Request bodies (11.4) -/

/-- The body length a request kind calls for, taken where it depends on a count or a tag from that count or tag as it
stands in the body (R188); none for a kind that is no request of the part (R182). -/
def requestLength (kind : Nat) (body : List Byte) : Option Nat :=
  match kind with
  | 0x10 => some (5 + u8 body 4)              -- slot, limit (2), access, slug
  | 0x11 => some (u8 body 0 + 5)              -- record
  | 0x12 | 0x13 | 0x15 => some 1
  | 0x14 => some (5 + u8 body 4)              -- slot, access, limit (2), slug
  | 0x16 => some 0
  | 0x20 | 0x21 | 0x23 => some 2
  | 0x22 => some 1
  | 0x24 => some 0
  | 0x28 | 0x29 => some (3 + (u8 body 3 + 5)) -- slot, index (2), record
  | 0x2A => some 4
  | 0x2B => some 3
  | 0x2C | 0x2D => some 0
  | 0x30 | 0x31 | 0x32 => some 0
  | 0x33 => some 1
  | 0x34 => some 4
  | 0x35 => some 2
  | 0x36 => some 7
  | 0x37 => some 3
  | 0x38 => some 0
  | 0x40 => some 1
  | 0x41 => some 2
  | 0x42 => some 1
  | 0x43 | 0x44 | 0x45 => some 0
  | 0x48 | 0x49 | 0x4A => some 1
  | 0x4B => some (6 + (match u8 body 5 with | 1 => 4 | 2 => 4 | 3 => 2 | _ => 0))
  | 0x4C => some 6
  | 0x4D => some 2
  | 0x50 => some 0
  | 0x51 => some 1
  | 0x52 => some 5
  | 0x53 | 0x54 => some 1
  | 0x55 => some 0
  | 0x58 => some 3
  | 0x59 => some 1
  | 0x5A => some 0
  | 0x60 => some 6
  | 0x61 => some 1
  | 0x70 => some 0
  | 0x71 => some 4
  | 0x72 => some 1
  | _ => none

/-- Whether a kind is a request of the part (R182). -/
def knownRequest (kind : Byte) : Bool := (requestLength kind.toNat []).isSome

/-- The reply kind of a frame's kind: the request code + 0x80, or 0xFF for an unknown kind (11.2, R181). -/
def replyKind (kind : Byte) : Byte := if knownRequest kind then kind + 0x80 else 0xFF

end Sys2Proof.Machine
end

