-- ==== Sys2Proof/Machine/Flags.lean ====
section
/-! DEFINITION. Replacing one block's part of the state; the notice list and its mask (R184); the change flags of a
port (R101). -/

namespace Sys2Proof.Machine

/-! ### One block at a time -/

def State.withStore (s : State) (x : TextStore) : State := { s with store := x }
def State.withScript (s : State) (x : ScriptTable) : State := { s with script := x }
def State.withEngine (s : State) (x : Engine) : State := { s with engine := x }
def State.withArbiter (s : State) (x : Arbiter) : State := { s with arbiter := x }
def State.withPort (s : State) (p : PortNo) (x : Port) : State := { s with ports := s.ports.set p.val x p.isLt }
def State.withCues (s : State) (x : CueMonitor) : State := { s with cues := x }
def State.withClock (s : State) (x : FrameClock) : State := { s with clock := x }
def State.withHead (s : State) (h : HeadNo) (x : Head) : State := { s with heads := s.heads.set h.val x h.isLt }
def State.withLink (s : State) (x : LinkController) : State := { s with link := x }
def State.withMail (s : State) (x : Mail) : State := { s with mail := x }
def State.withCause (s : State) (b : Bool) : State := { s with cause := b }

/-! ### Notices (R184) -/

/-- A notice's bit in the mask; its code is 0xE0 plus it (R188, 11.5). -/
def Notice.bit : Notice → Nat
  | .scrollHalted => 0 | .driveChanged => 1 | .portChanged => 2 | .cueFired => 3 | .timerExpired => 4
  | .editFault => 5 | .editWatch => 6 | .storyAired => 7 | .changedAfterAir => 8 | .reference => 9
  | .storeLow => 10 | .linkFault => 11 | .headChanged => 12

/-- A notice's code (11.5). -/
def Notice.code (n : Notice) : Byte := byte (0xE0 + n.bit)

/-- Whether a mask enables a notice. -/
def Notice.enabledBy (n : Notice) (mask : Half) : Bool := mask.getLsbD n.bit

/-- The notice list after a raise: an enabled kind that is not pending joins the tail (R184). -/
def LinkController.raise (l : LinkController) (n : Notice) : LinkController :=
  if n.enabledBy l.mask ∧ n ∉ l.notices then { l with notices := l.notices ++ [n] } else l

/-- A block raises a notice kind (R184). -/
def raise (n : Notice) (s : State) : State := s.withLink (s.link.raise n)

/-! ### Change flags (R101) -/

/-- The three change flags. -/
inductive ChangeFlag where | connect | enable | fault
  deriving DecidableEq, Repr

def Port.flag (q : Port) : ChangeFlag → Bool
  | .connect => q.connectChange
  | .enable => q.enableChange
  | .fault => q.faultChange

def Port.setFlag (q : Port) : ChangeFlag → Port
  | .connect => { q with connectChange := true }
  | .enable => { q with enableChange := true }
  | .fault => { q with faultChange := true }

/-- Set a change flag of a port; one that goes from clear to set raises Port Changed (R101). -/
def setChange (f : ChangeFlag) (p : PortNo) (s : State) : State :=
  let q := s.ports[p]
  if q.flag f then s else raise .portChanged (s.withPort p (q.setFlag f))

/-- The change flags as a set: connect 0, enable 1, fault 2 (R188). -/
def Port.changeByte (q : Port) : Byte :=
  byte (q.connectChange.toNat + 2 * q.enableChange.toNat + 4 * q.faultChange.toNat)

end Sys2Proof.Machine
end

