-- ==== Sys2Proof/Machine/Notices.lean ====
section
/-! DEFINITION. The bodies of the notices (11.5), and what the transmitter does with a reply and with a notice (R183). -/

namespace Sys2Proof.Machine

/-! ### What the bodies read of their owners -/

/-- The free count is the number of entries of the pool (R1). -/
def TextStore.freeCount (t : TextStore) : Nat := t.pool.length

/-- The slot whose line list holds a block, and the block's index in it (R65). -/
def ScriptTable.locate (t : ScriptTable) (block : Nat) : Option (Slot × Nat) :=
  (List.finRange 64).findSome? (fun k => (t.stories[k].lines.findIdx? (· = block)).map (fun i => (k, i)))

/-- The waiting list: OPERATOR ports before PRESENTER ports, within a class in the order of joining (R122). -/
def Arbiter.waiting (a : Arbiter) : List PortNo :=
  a.joined.filter (fun p => a.classes[p] = .operator) ++ a.joined.filter (fun p => a.classes[p] = .presenter)

/-- The arbiter's holder and its class as a Holder request is answered (R126). -/
def Arbiter.holderClass (a : Arbiter) : Option HolderClass :=
  match a.holder with
  | none => none
  | some .desk => some .desk
  | some (.port p) => match a.classes[p] with
    | .operator => some .operator
    | .presenter => some .presenter

/-- The pin as a byte: port or the none value. -/
def portByte : Option PortNo → Byte
  | some p => byte p.val
  | none => noneByte

/-- The waiting list with its count, as in the Drive Changed body (11.5). -/
def Arbiter.waitingBytes (a : Arbiter) : List Byte := byte a.waiting.length :: a.waiting.map (fun p => byte p.val)

/-- Slot and line index of a block, as a reply or a notice carries them. Where no line list holds the block any more, as
when Scroll Halted is sampled while the delete report for the reading block still waits at the engine, the spec gives
neither, and both are free values (log 51). -/
def placeBytes (t : ScriptTable) (block : Nat) : List Byte :=
  match t.locate block with
  | some (k, i) => byte k.val :: two i
  | none => Config.noPlaceSlot :: twoOf Config.noPlaceLine

/-- The Cue Fired body: the last fired record (11.5). -/
def firedBytes (r : Option FiredRecord) : List Byte :=
  match r with
  | some x => [1, byte x.slot.val] ++ two x.line ++ [x.kind.code, byte x.param] ++ twoOf x.frame
  | none => [0, 0, 0, 0, 0, 0, 0, 0]

/-- The Edit Fault body: the fault record with its frozen flag (11.5, R62). -/
def faultBytes (r : Option FaultRecord) : List Byte :=
  match r with
  | some x => [1, x.causes.code, x.kind.code, byte x.slot.val] ++ two x.line ++ twoOf x.frame
  | none => [0, 0, 0, 0, 0, 0, 0, 0]

/-- The Edit Watch body: the watch record with its presence (11.5, R56). -/
def watchBytes (r : Option WatchRecord) : List Byte :=
  match r with
  | some x => [1, x.kind.code, byte x.slot.val] ++ two x.line ++ [sbyte x.change] ++ twoOf x.frame
  | none => [0, 0, 0, 0, 0, 0, 0, 0]

/-! ### Notice bodies (11.5), sampled from their owners when transmission begins (R183) -/

/-- The Scroll Halted body (R69). -/
def scrollHaltedBytes (s : State) : List Byte :=
  s.engine.haltCause.code :: twoOf s.engine.haltFrame ++
    (match s.engine.live with
     | some p => 1 :: placeBytes s.script p.block ++ [byte p.sub]
     | none => [0, 0, 0, 0, 0])

/-- One port of the Port Changed body (R101). -/
def Port.changedBytes (q : Port) : List Byte := [q.state.code, faultCauseCode q.fault, kindCode q.kind, q.changeByte]

/-- The set of heads UP (R164). -/
def headsUp (s : State) : Byte :=
  byte ((List.finRange 4).map (fun h => if s.heads[h].up then 2 ^ h.val else 0)).sum

/-- The frame number of the last link error; 0 for none. -/
def linkErrorFrame : Option (LinkErrorCause × Half) → Half
  | some x => x.2
  | none => 0

/-- The body of a notice (11.5). -/
def noticeBody (n : Notice) (s : State) : List Byte :=
  match n with
  | .scrollHalted => scrollHaltedBytes s
  | .driveChanged =>
    let a := s.arbiter
    [sourceCode a.holder, holderClassCode a.holderClass, a.mode.code, portByte a.pin] ++ a.waitingBytes
  | .portChanged => s.ports.toList.flatMap Port.changedBytes
  | .cueFired => firedBytes s.cues.lastFired
  | .timerExpired => [s.cues.expired]
  | .editFault => faultBytes s.script.fault
  | .editWatch => watchBytes s.script.watch
  | .storyAired => [slotByte s.script.lastAired]
  | .changedAfterAir => [slotByte s.script.lastChanged]
  | .reference =>
    [refEventCode s.clock.event, s.clock.lock.code, s.clock.mode.code] ++ twoOf s.clock.counter
  | .storeLow => two s.store.freeCount ++ two s.store.threshold
  | .linkFault => linkErrorCode s.link.lastError :: twoOf (linkErrorFrame s.link.lastError)
  | .headChanged => [headsUp s]

/-- What sampling a body does to its owner: only the expired set is emptied (R151, R183). -/
def afterSampling (n : Notice) (s : State) : State :=
  match n with
  | .timerExpired => s.withCues { s.cues with expired := 0 }
  | .scrollHalted | .driveChanged | .portChanged | .cueFired | .editFault | .editWatch | .storyAired
  | .changedAfterAir | .reference | .storeLow | .linkFault | .headChanged => s

/-- A notice as a frame. -/
def noticeFrame (n : Notice) (s : State) : Reply := { kind := n.code, body := noticeBody n s, isReset := false }

/-! ### The transmitter (R183) -/

/-- The transmission of a reply begins: it leaves the reply queue. -/
def sendReply (r : Reply) (rest : List Reply) (s : State) : State :=
  s.withLink { s.link with sending := some r, replies := rest }

/-- The transmission of a notice begins: it leaves the notice list, and its body is sampled. -/
def sendNotice (n : Notice) (rest : List Notice) (s : State) : State :=
  afterSampling n (s.withLink { s.link with sending := some (noticeFrame n s), notices := rest })

/-- The transmitter has fallen free: it takes the head reply, else the oldest notice, else it waits (R183). -/
def transmitNext (s : State) : State :=
  match s.link.replies, s.link.notices with
  | r :: rest, _ => sendReply r rest s
  | [], n :: rest => sendNotice n rest s
  | [], [] => s.withLink { s.link with sending := none }

/-- A transmitter that waits sends the first notice listed or reply placed at once (R183). A step is whole: every step ends
with this, so the body is sampled as the step that listed the notice leaves its owner, and a kind that one step raises
more than once is listed once (log 41). A step that lists a notice and places a reply lists the notice first (R182). -/
def sendIfIdle (s : State) : State :=
  match s.link.sending, s.link.notices, s.link.replies with
  | some _, _, _ => s
  | none, n :: rest, _ => sendNotice n rest s
  | none, [], r :: rest => sendReply r rest s
  | none, [], [] => s

end Sys2Proof.Machine
end

