-- ==== Sys2Proof/Machine/Ops.lean ====
section
/-! DEFINITION. The operations the families share: the outcome of a command, messages between blocks, the Text
Store, the walk of the script, and the execution of a request. -/

namespace Sys2Proof.Machine

/-- The outcome of a command. -/
abbrev Out := Host.Outcome State Fault Refusal

/-! ### Commands as events

An event that goes back to the last request is marked while it runs, so that the messages it sends are marked too
(R182, log 7). -/

/-- Run an event with its mark, and leave no event under way; a transmitter that waits then sends what the event has
placed or listed (R183). A step that the event carries out before its own, because it was due first, has ended the same
way (log 41). -/
def event (req : Bool) (f : State → State) (s : State) : State := sendIfIdle ((f (s.withCause req)).withCause false)

/-- The outcome of an event: always a next state (no event of the part stops it). -/
def ran (s : State) : Out := .next s

/-- Take the head of a channel when it passes the test `want`, and run the event it brings; otherwise nothing
happens (log 1). -/
def takeHead {α β : Type} (channel : List (Msg α)) (want : α → Option β) (drop : List (Msg α) → State → State)
    (f : β → State → State) (s : State) : State :=
  match channel with
  | m :: rest =>
    match want m.body with
    | some x => event m.req (f x) (drop rest s)
    | none => s
  | [] => s

/-! ### Sending (each message carries the mark of the event that sends it) -/

/-- A message as the event under way sends it. -/
def State.msg {α : Type} (s : State) (x : α) : Msg α := { req := s.cause, body := x }

/-- The Scroll Engine reports to the Script Table (R20, R23). -/
def sendScript (x : ScriptMsg) (s : State) : State :=
  s.withMail { s.mail with toScript := s.mail.toScript ++ [s.msg x] }

/-- The Script Table delivers a request's reports to the Scroll Engine and the Cue Monitor in one step (R39, R40). -/
def sendReports (rs : List ScriptReport) (s : State) : State :=
  s.withMail { s.mail with
    engineReports := s.mail.engineReports ++ rs.map s.msg
    cueReports := s.mail.cueReports ++ rs.map (fun r => s.msg (.report r)) }

/-- Line Rewritten to the Cue Monitor (R48). -/
def sendRewritten (slot : Slot) (block : Nat) (s : State) : State :=
  s.withMail { s.mail with cueReports := s.mail.cueReports ++ [s.msg (.rewritten slot block)] }

/-- Position Jumped to the Cue Monitor (R92). -/
def sendJumped (s : State) : State :=
  s.withMail { s.mail with cueJumps := s.mail.cueJumps ++ [s.msg ()] }

/-- The STOP expiry action to the Scroll Engine (R151). -/
def sendStop (s : State) : State :=
  s.withMail { s.mail with engineStops := s.mail.engineStops ++ [s.msg ()] }

/-- The holder's input to the Scroll Engine (R126). -/
def sendInput (x : HolderInput) (s : State) : State :=
  s.withMail { s.mail with engineInput := s.mail.engineInput ++ [s.msg x] }

/-- A frame start to the Scroll Engine and the Cue Monitor, carrying the counter (R155). -/
def sendFrameStart (s : State) : State :=
  s.withMail { s.mail with
    engineFrames := s.mail.engineFrames ++ [s.msg s.clock.counter]
    cueFrames := s.mail.cueFrames ++ [s.msg s.clock.counter] }

/-- A port's message to the arbiter (R104 to R106). -/
def sendArbiter (p : PortNo) (x : PortMsg) (s : State) : State :=
  s.withMail { s.mail with toArbiter := s.mail.toArbiter.set p.val (s.mail.toArbiter[p] ++ [s.msg x]) p.isLt }

/-- A Standing report to a port (R121). -/
def sendStanding (p : PortNo) (d : DriveState) (c : PortClass) (s : State) : State :=
  s.withMail { s.mail with standing := s.mail.standing.set p.val (s.mail.standing[p] ++ [s.msg (d, c)]) p.isLt }

/-- Lamp Flash or Lamp Flash End to all four ports (R113, R145). -/
def sendFlash (on : Bool) (s : State) : State :=
  s.withMail { s.mail with flash := s.mail.flash.map (· ++ [s.msg on]) }

/-- Cue Flag or Cue Flag End to all four Head Links (R145, R175). -/
def sendCueFlag (on : Bool) (s : State) : State :=
  s.withMail { s.mail with cueFlag := s.mail.cueFlag.map (· ++ [s.msg on]) }

/-- A publish to all four Head Links (R77). -/
def sendPublish (x : Publish) (s : State) : State :=
  s.withMail { s.mail with publish := s.mail.publish.map (· ++ [s.msg x]) }

/-- Whether a channel holds a message that goes back to the last request. -/
def hasReq {α : Type} (channel : List (Msg α)) : Bool := channel.any (·.req)

/-- Every message the last request caused, and every one sent on in answer, has been taken (R182). -/
def State.settled (s : State) : Bool :=
  let m := s.mail
  !(hasReq m.toScript || hasReq m.engineReports || hasReq m.engineFrames || hasReq m.engineStops ||
    hasReq m.engineInput || hasReq m.cueReports || hasReq m.cueJumps || hasReq m.cueFrames ||
    m.toArbiter.any hasReq || m.standing.any hasReq || m.flash.any hasReq || m.cueFlag.any hasReq ||
    m.publish.any hasReq)

/-! ### The Text Store's blocks: a sparse list in canonical form -/

/-- The block of a number; one that is not listed is as power-on left it. -/
def blockAt (bs : List (Nat × LineBlock)) (n : Nat) : LineBlock :=
  match bs with
  | [] => .blank
  | (k, b) :: rest => if k = n then b else blockAt rest n

/-- Write a block, keeping the list rising and free of power-on values. -/
def writeBlock (bs : List (Nat × LineBlock)) (n : Nat) (x : LineBlock) : List (Nat × LineBlock) :=
  match bs with
  | [] => if x = .blank then [] else [(n, x)]
  | (k, b) :: rest =>
    if k < n then (k, b) :: writeBlock rest n x
    else if k = n then (if x = .blank then rest else (n, x) :: rest)
    else (if x = .blank then (k, b) :: rest else (n, x) :: (k, b) :: rest)

/-- The canonical form: numbers strictly rising, and no block listed that equals its power-on value. -/
abbrev BlocksWf (bs : List (Nat × LineBlock)) : Prop :=
  bs.Pairwise (fun a b => a.1 < b.1) ∧ ∀ c ∈ bs, c.2 ≠ LineBlock.blank

/-- Read Block (R10). -/
def TextStore.read (t : TextStore) (n : Nat) : LineBlock := blockAt t.blocks n

/-- The re-arm level (R11). -/
def TextStore.rearmLevel (t : TextStore) : Nat := min (t.threshold + Config.rearmMargin) Config.blocks

/-- The Store Low test (R11). -/
def storeLowTest (s : State) : State :=
  if s.store.armed ∧ s.store.freeCount < s.store.threshold then
    raise .storeLow (s.withStore { s.store with armed := false })
  else s

/-- The re-arm test (R12). -/
def rearmTest (s : State) : State :=
  if !s.store.armed ∧ s.store.rearmLevel ≤ s.store.freeCount then s.withStore { s.store with armed := true } else s

/-- Take Block: the block at the head of the pool takes the record, and the Store Low test follows (R7). None for
an empty pool. -/
def takeBlock (r : LineRecord) (s : State) : Option (Nat × State) :=
  match s.store.pool with
  | [] => none
  | n :: rest =>
    let b := s.store.read n
    some (n, storeLowTest (s.withStore { s.store with
      pool := rest, blocks := writeBlock s.store.blocks n { b with record := some r } }))

/-- Return one block to the tail of the pool, its record gone and its generation increased (R8). -/
def TextStore.returnOne (t : TextStore) (n : Nat) : TextStore :=
  { t with pool := t.pool ++ [n], blocks := writeBlock t.blocks n { gen := (t.read n).gen + 1, record := none } }

/-- Return Run (R8), with the re-arm test after its last block. -/
def returnRun (run : List Nat) (s : State) : State :=
  rearmTest (s.withStore (run.foldl TextStore.returnOne s.store))

/-- Rewrite Block (R9). -/
def rewriteBlock (n : Nat) (r : LineRecord) (s : State) : State :=
  s.withStore { s.store with
    blocks := writeBlock s.store.blocks n { gen := (s.store.read n).gen + 1, record := some r } }

/-- The Text Store under a SCRIPT or ALL reset: blocks in use are returned, the pool is rebuilt (R16). -/
def TextStore.scriptReset (t : TextStore) (all : Bool) : TextStore :=
  { blocks := (t.blocks.map (fun c =>
      if c.2.record.isSome then (c.1, { gen := c.2.gen + 1, record := none }) else c)).filter (fun c => c.2 ≠ .blank)
    pool := List.range Config.blocks
    threshold := if all then 256 else t.threshold
    armed := true }

/-! ### The script: standings and the walk (R30, R31) -/

/-- The story of a slot with its descriptor replaced. -/
def ScriptTable.withStory (t : ScriptTable) (k : Slot) (x : Story) : ScriptTable :=
  { t with stories := t.stories.set k.val x k.isLt }

/-- The standing of an entry (R31). No entry names a FREE slot (R29). -/
def ScriptTable.standing (t : ScriptTable) (e : Entry) : Standing :=
  if e.floated then .passed
  else
    let y := t.stories[e.slot]
    match y.state with
    | .free => .passed
    | .loading => .gap
    | .ready => if y.access = .closed then .gap else if y.lines.isEmpty then .passed else .eligible

/-- The index of a slot's entry (R29: at most one). -/
def ScriptTable.entryIndex (t : ScriptTable) (k : Slot) : Option Nat := t.order.findIdx? (fun e => e.slot = k)

/-- The standing of a slot's entry; none without an entry. -/
def ScriptTable.standingOf (t : ScriptTable) (k : Slot) : Option Standing :=
  (t.order.find? (fun e => e.slot = k)).map t.standing

/-- Eligible stories (R30). -/
def ScriptTable.eligible (t : ScriptTable) (k : Slot) : Bool := t.standingOf k = some .eligible

/-- The lines met by walking entries one after another: eligible ones are read, PASSED ones crossed, and a GAP ends
the walk (R30, R31). The flag says that a GAP ended it. `backward` reads each story from its last line. -/
def ScriptTable.walk (t : ScriptTable) (backward : Bool) : List Entry → List Nat × Bool
  | [] => ([], false)
  | e :: es =>
    match t.standing e with
    | .gap => ([], true)
    | .passed => t.walk backward es
    | .eligible =>
      let ls := t.stories[e.slot].lines
      let rest := t.walk backward es
      ((if backward then ls.reverse else ls) ++ rest.1, rest.2)

/-- What can be reached from a block of an eligible story without meeting a GAP or the end of the order: the lines
behind and ahead of it, nearest first, and whether a GAP ends each side. -/
structure Reach where
  back : List Nat
  backGap : Bool
  fore : List Nat
  foreGap : Bool
  deriving DecidableEq, Repr

/-- The reach of a block; none when it does not stand in the line list of an eligible story. -/
def ScriptTable.reach (t : ScriptTable) (block : Nat) : Option Reach :=
  match t.locate block with
  | none => none
  | some (k, i) =>
    match t.entryIndex k with
    | none => none
    | some j =>
      if t.eligible k then
        let ls := t.stories[k].lines
        let f := t.walk false (t.order.drop (j + 1))
        let b := t.walk true (t.order.take j).reverse
        some { back := (ls.take i).reverse ++ b.1, backGap := b.2, fore := ls.drop (i + 1) ++ f.1, foreGap := f.2 }
      else none

/-- A place `x` sublines from the start of a block, counted through the lines of its reach (R65, R73). -/
def Reach.at (r : Reach) (block : Nat) (x : Int) : Pos :=
  if 0 ≤ x then
    { block := (block :: r.fore).getD (x.toNat / 256) block, sub := x.toNat % 256 }
  else
    let m := (-x).toNat
    let k := (m + 255) / 256
    { block := r.back.getD (k - 1) block, sub := 256 * k - m }

/-- The forward travel limit, subline 255 of the last line ahead, from the start of the block (R74). -/
def Reach.ahead (r : Reach) : Int := 256 * r.fore.length + 255

/-- The backward travel limit, subline 0 of the first line behind, from the start of the block (R74). -/
def Reach.behind (r : Reach) : Int := -(256 * (r.back.length : Int))

/-- How far the start of a line lies from the start of the block; none when a GAP or the end lies between. -/
def Reach.offset (r : Reach) (block target : Nat) : Option Int :=
  if target = block then some 0
  else match r.fore.findIdx? (· = target) with
    | some i => some (256 * ((i : Int) + 1))
    | none => (r.back.findIdx? (· = target)).map (fun i => -(256 * ((i : Int) + 1)))

/-- The first eligible story among entries. -/
def ScriptTable.firstEligible (t : ScriptTable) (es : List Entry) : Option Slot :=
  (es.find? (fun e => t.standing e = .eligible)).map (·.slot)

/-! ### Script-change reports (R39) -/

/-- The reports of a request that has turned one script into another, touching one slot: its insert or delete report,
then story ineligible, story eligible and order changed as the changes call for them (R39). -/
def reportsOf (lead : List ScriptReport) (k : Slot) (before after : ScriptTable) : List ScriptReport :=
  lead
  ++ (if before.eligible k ∧ !after.eligible k then [.ineligible k ((before.entryIndex k).getD 0)] else [])
  ++ (if !before.eligible k ∧ after.eligible k then [.eligible k] else [])
  ++ (if before.order ≠ after.order ∨ before.standingOf k ≠ after.standingOf k then [.orderChanged] else [])

/-- Replace the script by a changed one and send the reports of the change (R39, R40). -/
def changeScript (lead : List ScriptReport) (k : Slot) (after : ScriptTable) (s : State) : State :=
  sendReports (reportsOf lead k s.script after) (s.withScript after)

/-! ### Executing a request (R182) -/

/-- What an owner answers: the status, the results after it, and the state it leaves. -/
structure Answer where
  status : Status
  results : List Byte
  state : State

/-- Carried out, with results. -/
def done (results : List Byte) (s : State) : Answer := { status := .done, results := results, state := s }

/-- Refused: no state changes. -/
def refuse (status : Status) (s : State) : Answer := { status := status, results := [], state := s }

/-- The reply of an answer: a reply of any status but Done has a one-byte body (R188). A request is taken only while no
Reset waits to take effect, so a scope that stands after it is that of the Reset it accepted (R186). -/
def Answer.reply (a : Answer) (kind : Byte) : Reply :=
  { kind := replyKind kind, isReset := a.state.link.resetScope.isSome,
    body := if a.status = .done then a.status.code :: a.results else [a.status.code] }

/-- The silence count has reached the limit of the port's state: 10 in IDENTIFYING (R99), 5 in ATTACHED and ENABLED
(R100). -/
def Port.silenceDue (q : Port) : Bool :=
  match q.state with
  | .identifying => 10 ≤ q.silence
  | .attached | .enabled => 5 ≤ q.silence
  | .detached | .faulted => false

/-- The Cue Monitor has finished the work of its last frame start. -/
def CueMonitor.quiet (c : CueMonitor) : Bool := !c.flashEndDue && !c.flagEndDue && c.expiring.isEmpty

/-- The port has finished the work of its last poll. -/
def Port.quiet (q : Port) : Bool := !q.releaseDue && !q.silenceDue

/-- A Query Port has been sampled and its flags are not cleared yet (R116; log 42). -/
def State.acknowledging (s : State) : Bool := s.ports.any (·.ackDue.isSome)

/-- No event is half done: a step of its own that a poll or a frame start has made due is still part of that event,
and a request is taken before or after the whole of it (log 10). Nor is a Query Port half executed (R116, R182). -/
def State.quiet (s : State) : Bool := s.cues.quiet && s.ports.all Port.quiet && !s.acknowledging

/-- The Link Controller takes the head request: no event is half done, no accepted Reset is waiting to take effect (R186),
the messages of the last request have been taken, and the reply queue has room for the reply and the Busy replies attached
(R182). -/
def State.canTake (s : State) : Bool :=
  match s.link.requests with
  | [] => false
  | r :: _ => s.quiet && s.link.resetScope.isNone && s.settled &&
    s.link.replies.length + 1 + r.busy.length ≤ Config.replyDepth

/-- Place a reply and the Busy replies attached to its request, and drop the request from the queue (R182). -/
def placeReply (reply : Reply) (busy : List Reply) (s : State) : State :=
  s.withLink { s.link with requests := s.link.requests.tail, replies := s.link.replies ++ reply :: busy }

/-- Whether a frame's body has the length its kind calls for (R182). -/
def bodyFits (r : Request) : Bool := requestLength r.kind.toNat r.body = some r.body.length

/-- Execute the head request when it can be taken and is the one meant: the Malformed check, then its owner (R182). -/
def runRequestIf (meant : Request → Bool) (owner : List Byte → State → Answer) (s : State) : State :=
  match s.link.requests with
  | [] => s
  | r :: _ =>
    if meant r && s.canTake then
      event true (fun u =>
        let a := if bodyFits r then owner r.body u else refuse .malformed u
        placeReply (a.reply r.kind) r.busy a.state) s
    else s

/-- Execute the head request when it is of the given kind. -/
def runRequest (kind : Nat) (owner : List Byte → State → Answer) (s : State) : State :=
  runRequestIf (fun r => r.kind.toNat = kind) owner s

/-- A slot field: outside 0..63 it is refused with Range. -/
def withSlot (n : Nat) (s : State) (f : Slot → Answer) : Answer :=
  if h : n < 64 then f ⟨n, h⟩ else refuse .range s

/-- A port or head field: outside 0..3 it is refused with Range. -/
def withFour (n : Nat) (s : State) (f : Fin 4 → Answer) : Answer :=
  if h : n < 4 then f ⟨n, h⟩ else refuse .range s

/-- A timer field: above 5 it is refused with Range. -/
def withTimer (n : Nat) (s : State) (f : TimerNo → Answer) : Answer :=
  if h : n < 6 then f ⟨n, h⟩ else refuse .range s

/-! ### Receiving on a link line (R179, R180, R190) -/

/-- A frame is under way and more than 5 ms have passed since its last character (R180, R190). -/
def LinkRx.timedOut (r : LinkRx) (now : Nat) : Bool :=
  r.state ≠ .hunting && r.lastAt + Config.characterGap < now

end Sys2Proof.Machine
end

