-- ==== Sys2Proof/Machine/Cue.lean ====
section
/-! DEFINITION. The Cue Monitor (chapter 7): the cue queue, the passage check and firing, the cue timers, its
requests and the steps by which it takes reports and frame starts. -/

namespace Sys2Proof.Machine

/-! ### The queue: scan, rebuild, refill (R138 to R140) -/

/-- The markers of a list of blocks, in order, as ARMED entries with kind and parameter as the Text Store holds them. -/
def markersOf (t : TextStore) (bs : List Nat) : List CueEntry :=
  bs.filterMap (fun b => ((t.read b).record.bind (·.marker)).map (fun m =>
    { block := b, kind := m.kind, param := m.param, skipped := false }))

/-- An entry keeps the state its block had in the old queue (R139). -/
def keepState (old : List CueEntry) (e : CueEntry) : CueEntry :=
  { e with skipped := old.any (fun o => o.block = e.block ∧ o.skipped) }

/-- The queue rebuilt against a position, keeping the states of `old` (R138, R139). Against VOID it is empty. Against a
position whose block stands in no eligible story, until the Position Jumped that follows, the queue keeps the entries
whose lines stand in one, as the Text Store holds their markers: the model's choice (log 11). -/
def rebuilt (t : ScriptTable) (st : TextStore) (pos : Option Pos) (old queue : List CueEntry) : List CueEntry :=
  match pos with
  | none => []
  | some p =>
    match t.reach p.block with
    | none => (markersOf st ((queue.map (·.block)).filter (fun b => (t.reach b).isSome))).map (keepState old)
    | some r => ((markersOf st r.fore).take Config.cueDepth).map (keepState old)

/-- Replace the queue. -/
def setQueue (q : List CueEntry) (s : State) : State := s.withCues { s.cues with queue := q }

/-- Rebuild against a position (R139). -/
def rebuildAt (pos : Option Pos) (s : State) : State :=
  setQueue (rebuilt s.script s.store pos s.cues.queue s.cues.queue) s

/-- Rebuild against the live position as the Scroll Engine answers it (R65, R139). -/
def rebuild (s : State) : State := rebuildAt s.engine.live s

/-- Refill the queue at its tail, scanning on from the line of its last entry, or from `anchor` when it has emptied
(R140). -/
def refill (t : ScriptTable) (st : TextStore) (anchor : Nat) (q : List CueEntry) : List CueEntry :=
  let start := (q.getLast?.map (·.block)).getD anchor
  match t.reach start with
  | none => q
  | some r =>
    let more := (markersOf st r.fore).filter (fun e => !q.any (fun o => o.block = e.block))
    q ++ more.take (Config.cueDepth - q.length)

/-! ### Frame counts (R145) -/

/-- The LAMP action of `f` frames (R145). -/
def lampAction (f : Nat) (s : State) : State :=
  let t := s.withCues { s.cues with flashCount := max s.cues.flashCount f }
  if s.cues.flashCount = 0 ∧ 0 < f then sendFlash true t else t

/-- The HEAD_FLAG action of `f` frames (R145). -/
def headFlagAction (f : Nat) (s : State) : State :=
  let t := s.withCues { s.cues with flagCount := max s.cues.flagCount f }
  if s.cues.flagCount = 0 ∧ 0 < f then sendCueFlag true t else t

/-! ### Timers (R148 to R151) -/

def CueMonitor.withTimer (c : CueMonitor) (n : TimerNo) (x : Timer) : CueMonitor :=
  { c with timers := c.timers.set n.val x n.isLt }

/-- Start a timer (R149). -/
def startTimer (n : TimerNo) (s : State) : State :=
  let x := s.cues.timers[n]
  s.withCues (s.cues.withTimer n { x with count := x.reload, running := true })

/-- Stop a timer (R149). -/
def stopTimer (n : TimerNo) (s : State) : State :=
  s.withCues (s.cues.withTimer n { s.cues.timers[n] with running := false })

/-- A timer named by a marker's parameter, 0..5 (R4). -/
def timerOf (n : Nat) (f : TimerNo → State → State) (s : State) : State :=
  if h : n < 6 then f ⟨n, h⟩ s else s

/-- The timer with 1 taken from its count. -/
def Timer.less (x : Timer) : Timer := { x with count := x.count - 1 }

/-- Take 1 from a running timer's count; a count that reaches 0 is an expiry, due in number order (R150, R151). -/
def countTimer (n : TimerNo) (c : CueMonitor) : CueMonitor :=
  let x := c.timers[n].less
  let c' := c.withTimer n x
  if x.count = 0 then
    { c' with expiring := c.expiring.filter (· < n) ++ n :: c.expiring.filter (n < ·) }
  else c'

/-- The expiry action (R151). -/
def expiryAction (a : ExpiryAction) (s : State) : State :=
  match a with
  | .none => s
  | .stop => sendStop s
  | .lamp => lampAction Config.lampActionFrames s

/-- A timer after its expiry (R151): RELOAD loads and keeps running; ONE_SHOT and CHAINED stop at 0. -/
def Timer.afterExpiry (x : Timer) : Timer :=
  match x.mode with
  | .reload => { x with count := x.reload }
  | .oneShot | .chained => { x with running := false, count := 0 }

/-- The expiry is passed to a running CHAINED timer numbered one above, if there is one (R150, R151). -/
def passExpiry (n : TimerNo) (c : CueMonitor) : CueMonitor :=
  if h : n.val + 1 < 6 then
    let m : TimerNo := ⟨n.val + 1, h⟩
    if c.timers[m].running ∧ c.timers[m].mode = .chained then countTimer m c else c
  else c

/-- A timer that was at 0 expires: the expired set, the notice, the action, the mode, and the chain (R151). -/
def expireTimer (n : TimerNo) (s : State) : State :=
  let x := s.cues.timers[n]
  let s1 := s.withCues { s.cues with expiring := s.cues.expiring.tail,
                                     expired := s.cues.expired ||| byte (2 ^ n.val) }
  let s2 := expiryAction x.action (raise .timerExpired s1)
  s2.withCues (passExpiry n (s2.cues.withTimer n x.afterExpiry))

/-! ### The work of a frame start (R145, R150)

A frame start lowers the two counts and the running timers. A count that reached 0 and each expiry are steps of
their own; the Cue Monitor finishes them before it takes any other event (log 10). -/

/-- Lamp Flash End, due (R145). -/
def endFlash (s : State) : State :=
  if s.cues.flashEndDue then sendFlash false (s.withCues { s.cues with flashEndDue := false }) else s

/-- Cue Flag End, due (R145). -/
def endCueFlag (s : State) : State :=
  if s.cues.flagEndDue then sendCueFlag false (s.withCues { s.cues with flagEndDue := false }) else s

/-- Timer n expires if its expiry is the next due. Each expiry is a step of its own, so a transmitter that waits sends its
notice at once, and the next expiry lists the kind anew (R151, R183). -/
def expireIfDue (s : State) (n : TimerNo) : State :=
  if s.cues.expiring.head? = some n then sendIfIdle (expireTimer n s) else s

/-- Finish the work of the last frame start. An expiry can only bring on that of the next timer, so one pass in number
order ends it. -/
def finishCueWork (s : State) : State :=
  (List.finRange 6).foldl expireIfDue (endCueFlag (endFlash s))

/-- Take the reports and the jumps that wait, each with its rebuild against the live position (R40, R139). Rebuilds
against one position give one queue. -/
def drainCueMail (s : State) : State :=
  if s.mail.cueReports.isEmpty ∧ s.mail.cueJumps.isEmpty then s
  else rebuild (s.withMail { s.mail with cueReports := [], cueJumps := [] })

/-- What the Cue Monitor has done before it takes a further event (R40, log 10, log 12). -/
def cueReady (s : State) : State := drainCueMail (finishCueWork s)

/-- Lower the counts of a frame start. -/
def lowerCounts (c : CueMonitor) : CueMonitor :=
  { c with
    flashCount := c.flashCount - 1, flashEndDue := c.flashEndDue || c.flashCount == 1
    flagCount := c.flagCount - 1, flagEndDue := c.flagEndDue || c.flagCount == 1 }

/-- The frame start counts a running ONE_SHOT or RELOAD timer (R150). -/
def frameTimer (c : CueMonitor) (n : TimerNo) : CueMonitor :=
  if c.timers[n].running ∧ c.timers[n].mode ≠ .chained then countTimer n c else c

/-- A frame start at the Cue Monitor (R145, R150). -/
def cueFrame (s : State) : State :=
  s.withCues ((List.finRange 6).foldl frameTimer (lowerCounts s.cues))

/-! ### Firing and the passage check (R141 to R144) -/

/-- The action of a marker kind (R144). PAUSE stops the check, NOTE has no further action. -/
def markerAction (k : MarkerKind) (param : Nat) (s : State) : State :=
  match k with
  | .pause | .note => s
  | .timerStart => timerOf param startTimer s
  | .timerStop => timerOf param stopTimer s
  | .lamp => lampAction param s
  | .headFlag => headFlagAction param s

/-- An ARMED entry fires: the last fired record, Cue Fired, the action (R144). The markers that one check fires are one
step, so Cue Fired is listed once for them (log 41). -/
def fire (e : CueEntry) (s : State) : State :=
  let record := (s.script.locate e.block).map (fun a =>
    { slot := a.1, line := a.2, kind := e.kind, param := e.param, frame := s.clock.counter : FiredRecord })
  markerAction e.kind e.param
    (raise .cueFired (s.withCues { s.cues with lastFired := record.or s.cues.lastFired }))

/-- The mode of a passage check (R76). -/
inductive CheckMode where | fire | silent
  deriving DecidableEq, Repr

/-- Remove the entry of a block and refill the queue, from its line when it has emptied (R140, R141). -/
def dropEntry (block : Nat) (s : State) : State :=
  setQueue (refill s.script s.store block (s.cues.queue.eraseP (·.block = block))) s

/-- Take the lines of a forward span one after another, each queued marker when its turn comes (R141 to R143): the state
and, for a PAUSE that fired, its block. In a queue in script order the marker whose turn it is stands at the head. -/
def passLines (mode : CheckMode) : List Nat → State → State × Option Nat
  | [], s => (s, none)
  | b :: bs, s =>
    match s.cues.queue.find? (·.block = b) with
    | none => passLines mode bs s
    | some e =>
      let s1 := dropEntry b s
      if mode = .silent ∨ e.skipped then passLines mode bs s1
      else
        let s2 := fire e s1
        if e.kind = .pause then (s2, some b) else passLines mode bs s2

/-- The lines whose starts lie in a forward span: after its start, at or before its end. With a start block that no
longer stands in an eligible story the span starts before the head of the queue, wherever that stands: it is every line
that leads to its end without a gap (R143). -/
def spanLines (t : ScriptTable) (start stop : Pos) (atStop : Reach) : List Nat :=
  match t.reach start.block with
  | some r =>
    match r.fore.findIdx? (· = stop.block) with
    | some i => r.fore.take (i + 1)
    | none => []
  | none => atStop.back.reverse ++ [stop.block]

/-- The passage check over a span (R141 to R143). -/
def passageCheck (start stop : Pos) (forward : Bool) (mode : CheckMode) (s : State) : State × Option Nat :=
  let s := cueReady s
  match s.script.reach stop.block with
  | none => (s, none)
  | some r =>
    if forward then passLines mode (spanLines s.script start stop r) s
    else (rebuildAt (some stop) s, none)

/-! ### The steps by which the Cue Monitor takes messages -/

/-- CUE_FRAME_START. -/
def execCueFrameStart (s : State) : Out :=
  ran (takeHead s.mail.cueFrames some (fun rest u => u.withMail { u.mail with cueFrames := rest })
    (fun _ u => cueFrame (cueReady u)) s)

/-- FLASH_COUNT_END. -/
def execFlashCountEnd (s : State) : Out := ran (event false endFlash s)

/-- CUE_FLAG_COUNT_END. -/
def execCueFlagCountEnd (s : State) : Out := ran (event false endCueFlag s)

/-- TIMER_EXPIRY: the next expiry due, after the ends of the two counts, which the frame start lowered first. -/
def execTimerExpiry (n : TimerNo) (s : State) : Out :=
  ran (if s.cues.expiring.head? = some n then event false (fun u => expireTimer n (endCueFlag (endFlash u))) s else s)

/-- POSITION_JUMPED. The reports that wait are taken with it, so that it never comes between two of one request (R40;
log 12). -/
def execPositionJumped (s : State) : Out :=
  ran (takeHead s.mail.cueJumps some (fun rest u => u.withMail { u.mail with cueReports := [], cueJumps := rest })
    (fun _ u => rebuild (finishCueWork u)) s)

/-- The report in a Cue Monitor message. -/
def CueMsg.asReport : CueMsg → Option ScriptReport
  | .report r => some r
  | .rewritten _ _ => none

/-- Whether a Cue Monitor message is Line Rewritten. -/
def CueMsg.asRewritten : CueMsg → Option (Slot × Nat)
  | .report _ => none
  | .rewritten k b => some (k, b)

/-- The message of a kind at the head of the channel from the Script Table, and with it every one behind it: a request's
reports are one whole (R40; log 50). Their rebuilds are made against one position and one script, so one stands for all
(R139). -/
def takeCueReportIf {α : Type} (want : CueMsg → Option α) (s : State) : State :=
  takeHead s.mail.cueReports want (fun _ u => u.withMail { u.mail with cueReports := [] })
    (fun _ u => rebuild (finishCueWork u)) s

/-- LINE_REWRITTEN. -/
def execLineRewritten (s : State) : Out := ran (takeCueReportIf CueMsg.asRewritten s)

/-- SCRIPT_CHANGE_REPORT. -/
def execScriptChangeReport (s : State) : Out := ran (takeCueReportIf CueMsg.asReport s)

/-! ### Requests (R146 to R149, R152) -/

/-- One entry of a Query Cues reply (R147; log 15). -/
def cueEntryBytes (t : ScriptTable) (e : CueEntry) : List Byte :=
  two e.block ++ placeBytes t e.block ++ [e.kind.code, byte e.param, flagByte e.skipped]

/-- Query Cues (R147). -/
def queryCues (_body : List Byte) (s : State) : Answer :=
  done (byte s.cues.queue.length :: s.cues.queue.flatMap (cueEntryBytes s.script)
    ++ firedBytes s.cues.lastFired ++ [byte s.cues.flashCount, byte s.cues.flagCount]) s

/-- Skip Cue (R146). -/
def skipCue (body : List Byte) (s : State) : Answer :=
  let i := u8 body 0
  match s.cues.queue[i]? with
  | none => refuse .range s
  | some e =>
    if e.skipped then refuse .state s
    else done (placeBytes s.script e.block) (setQueue (s.cues.queue.set i { e with skipped := true }) s)

/-- Set Timer (R148). -/
def setTimer (body : List Byte) (s : State) : Answer :=
  withTimer (u8 body 0) s (fun n =>
    let reload := u16 body 2
    match TimerMode.ofCode (u8 body 1), ExpiryAction.ofCode (u8 body 4) with
    | some mode, some action =>
      if reload = 0 ∨ (mode = .chained ∧ n.val = 0) then refuse .range s
      else
              let x := s.cues.timers[n]
        done [] (s.withCues (s.cues.withTimer n { x with
          mode := mode, reload := reload, action := action, count := if x.running then reload else x.count }))
    | _, _ => refuse .range s)

/-- Start Timer (R149). -/
def startTimerRequest (body : List Byte) (s : State) : Answer :=
  withTimer (u8 body 0) s (fun n => done [] (startTimer n s))

/-- Stop Timer (R149). -/
def stopTimerRequest (body : List Byte) (s : State) : Answer :=
  withTimer (u8 body 0) s (fun n => done [] (stopTimer n s))

/-- One timer of a Query Timers reply (R152; log 15). -/
def timerBytes (x : Timer) : List Byte :=
  [x.mode.code] ++ two x.reload ++ two x.count ++ [flagByte x.running, x.action.code]

/-- Query Timers (R152). -/
def queryTimers (_body : List Byte) (s : State) : Answer :=
  done (s.cues.timers.toList.flatMap timerBytes ++ [s.cues.expired]) s

/-- QUERY_CUES. -/
def execQueryCues (s : State) : Out := ran (runRequest 0x50 queryCues s)
/-- SKIP_CUE. -/
def execSkipCue (s : State) : Out := ran (runRequest 0x51 skipCue s)
/-- SET_TIMER. -/
def execSetTimer (s : State) : Out := ran (runRequest 0x52 setTimer s)
/-- START_TIMER. -/
def execStartTimer (s : State) : Out := ran (runRequest 0x53 startTimerRequest s)
/-- STOP_TIMER. -/
def execStopTimer (s : State) : Out := ran (runRequest 0x54 stopTimerRequest s)
/-- QUERY_TIMERS. -/
def execQueryTimers (s : State) : Out := ran (runRequest 0x55 queryTimers s)

end Sys2Proof.Machine
end

