-- ==== Sys2Proof/Machine/Scroll.lean ====
section
/-! DEFINITION. The Scroll Engine (chapter 4): halting, the frame advance, the holder's input, the relocation of the
reading line under script changes, the motion requests. -/

namespace Sys2Proof.Machine

/-! ### Velocity and halting (R69) -/

/-- A velocity cut to a greatest magnitude, its sign kept. -/
def cutTo (limit : Nat) (v : Int) : Int := max (-(limit : Int)) (min (limit : Int) v)

/-- A velocity moved toward another by at most `a` (R72). -/
def toward (v t : Int) (a : Nat) : Int := if v ≤ t then min t (v + a) else max t (v - a)

/-- Write a halt cause with the frame counter as it stands (R69, R60). -/
def Engine.note (e : Engine) (c : HaltCause) (frame : Half) : Engine := { e with haltCause := c, haltFrame := frame }

/-- The engine after an entry into HALTED (R69). -/
def Engine.halt (e : Engine) (c : HaltCause) (frame : Half) : Engine :=
  { e with motion := .halted, velocity := 0, goal := none, haltCause := c, haltFrame := frame }

/-- Enter HALTED from another state (R69); nothing in HALTED. -/
def enterHalted (c : HaltCause) (s : State) : State :=
  if s.engine.motion = .halted then s
  else raise .scrollHalted (s.withEngine (s.engine.halt c s.clock.counter))

/-! ### The live position (R65, R66) -/

/-- Set the position, before it is designated. -/
def setLive (p : Option Pos) (s : State) : State := s.withEngine { s.engine with live := p }

/-- Send a Designation when the settled position designates a line of another story than before (R66). -/
def designate (s : State) : State :=
  match s.engine.live with
  | none => s.withEngine { s.engine with liveSlot := none }
  | some p =>
    match s.script.locate p.block with
    | none => s
    | some (k, _) =>
      if s.engine.liveSlot = some k then s
      else sendScript (.designation k) (s.withEngine { s.engine with liveSlot := some k })

/-- A jump: the position moves, a Designation goes out if the story changed, then Position Jumped (R66, R92). -/
def jump (p : Option Pos) (s : State) : State := sendJumped (designate (setLive p s))

/-- The start of the first line of a story. -/
def ScriptTable.firstLine (t : ScriptTable) (k : Slot) : Option Pos :=
  t.stories[k].lines.head?.map (fun b => { block := b, sub := 0 })

/-- The start of the last line of a story. -/
def ScriptTable.lastLine (t : ScriptTable) (k : Slot) : Option Pos :=
  t.stories[k].lines.getLast?.map (fun b => { block := b, sub := 0 })

/-! ### Travel (R73 to R76) -/

/-- Where a travel ends and what halts it there. -/
structure Travel where
  stop : Pos
  cause : Option HaltCause
  deriving DecidableEq, Repr

/-- The travel of `v` sublines from a position within its reach, stopped by the travel limit (R73, R74). -/
def Reach.travel (r : Reach) (p : Pos) (v : Int) : Travel :=
  let x := (p.sub : Int) + v
  if 0 < v ∧ r.ahead ≤ x then
    { stop := r.at p.block r.ahead, cause := some (if r.foreGap then .gap else .endOfScript) }
  else if v < 0 ∧ x ≤ r.behind then
    { stop := r.at p.block r.behind, cause := some (if r.backGap then .gap else .endOfScript) }
  else { stop := r.at p.block x, cause := none }

/-- Travel a span with its passage check and set the position: to the span's end, or to the PAUSE line that answered
paused (R76). The result says whether it paused. -/
def travelSpan (mode : CheckMode) (forward : Bool) (start stop : Pos) (s : State) : State × Bool :=
  let r := passageCheck start stop forward mode s
  match r.2 with
  | some b => (setLive (some { block := b, sub := 0 }) r.1, true)
  | none => (setLive (some stop) r.1, false)

/-- The velocity of an advance, and the travel it makes. -/
def advanceBy (v : Int) (t : Travel) (forward : Bool) (p : Pos) (s : State) : State :=
  let mode : CheckMode := if s.engine.motion = .gliding then .silent else .fire
  let r := travelSpan mode forward p t.stop (s.withEngine { s.engine with velocity := v })
  if r.2 then enterHalted .marker r.1
  else match t.cause with
    | some c => enterHalted c r.1
    | none => r.1

/-- The magnitude of a goal's velocity when the distance to it is taken (R72). -/
def goalSpeed (g : Goal) (stepSpeed distance : Nat) : Nat :=
  if !g.glide then min stepSpeed distance
  else if g.framesLeft = 0 then 1024
  else min 1024 ((distance + g.framesLeft - 1) / g.framesLeft)

/-- Whether a goal lies ahead of the live story in the running order, when a GAP stands between (R72). -/
def goalAhead (t : ScriptTable) (p : Pos) (g : Goal) : Bool :=
  match (t.locate p.block).bind (fun a => t.entryIndex a.1), (t.locate g.block).bind (fun a => t.entryIndex a.1) with
  | some i, some j => i ≤ j
  | _, _ => false

/-- The advance in STEPPING and GLIDING (R72, R74, R75). -/
def advanceToGoal (g : Goal) (p : Pos) (r : Reach) (s : State) : State :=
  let done : HaltCause := if g.glide then .arrived else .stepDone
  let s := s.withEngine { s.engine with goal := some { g with framesLeft := g.framesLeft - 1 } }
  match r.offset p.block g.block with
  | some x =>
    let d := x - p.sub
    let forward : Bool := 0 ≤ d
    let speed := goalSpeed g s.engine.settings.stepSpeed d.natAbs
    let v : Int := if forward then speed else -(speed : Int)
    if d.natAbs ≤ speed then
      advanceBy v { stop := { block := g.block, sub := 0 }, cause := some done } forward p s
    else advanceBy v { stop := r.at p.block (p.sub + v), cause := none } forward p s
  | none =>
    let speed : Int := if g.glide then 1024 else s.engine.settings.stepSpeed
    let forward := goalAhead s.script p g
    let v := if forward then speed else -speed
    advanceBy v (r.travel p v) forward p s

/-- The advance of a frame (R72 to R76). -/
def advance (s : State) : State :=
  match s.engine.live with
  | none => s
  | some p =>
    match s.script.reach p.block with
    | none => s
    | some r =>
      let ramp (t : Int) := toward s.engine.velocity t s.engine.settings.accel
      match s.engine.motion with
      | .halted => s
      | .running =>
        let v := ramp s.engine.target
        if v = 0 then s.withEngine { s.engine with velocity := 0 }
        else advanceBy v (r.travel p v) (0 < v) p s
      | .stopping =>
        let v := ramp 0
        if v = 0 then enterHalted .request s
        else advanceBy v (r.travel p v) (0 < v) p s
      | .stepping | .gliding =>
        match s.engine.goal with
        | some g => advanceToGoal g p r s
        | none => s

/-- The slot and line of a block as a publish carries them. -/
def ScriptTable.placeOf (t : ScriptTable) (block : Option Nat) : Option (Slot × Nat) := block.bind t.locate

/-- The published position record (R77). -/
def publishOf (frame : Half) (s : State) : Publish :=
  { frame := frame, live := s.engine.live, liveAt := s.script.placeOf (s.engine.live.map (·.block)),
    preview := s.engine.preview, previewAt := s.script.placeOf s.engine.preview, motion := s.engine.motion }

/-- Report air time for a frame that begins with the scroll not HALTED (R71). -/
def reportAir (s : State) : State :=
  if s.engine.motion = .halted then s
  else match s.engine.live.bind (fun p => s.script.locate p.block) with
    | some (k, _) => sendScript (.airFrame k) s
    | none => s

/-- A frame start at the Scroll Engine: air time, advance, Designation, publish, in that order (R71). -/
def frameAdvance (frame : Half) (s : State) : State :=
  let s := designate (advance (reportAir s))
  sendPublish (publishOf frame s) s

/-! ### Script-change reports at the Scroll Engine (R66, R68, R88 to R92) -/

/-- Where a position held by a block of a deleted run moves in its story: the first line after the run, or failing
that the last line before it (R68, R89). -/
def ScriptTable.afterRun (t : ScriptTable) (k : Slot) (first : Nat) : Option Nat :=
  let ls := t.stories[k].lines
  ls[first]?.or ls.getLast?

/-- A step or glide whose target has left the scroll ends (R91). -/
def endGoalIf (gone : Nat → Bool) (s : State) : State :=
  match s.engine.goal with
  | some g => if gone g.block then enterHalted .scriptChange s else s
  | none => s

/-- A preview in a deleted run moves within its story (R68). -/
def previewAfterDelete (k : Slot) (first : Nat) (run : List Nat) (s : State) : State :=
  match s.engine.preview with
  | some b => if b ∈ run then s.withEngine { s.engine with preview := s.script.afterRun k first } else s
  | none => s

/-- A reading line in a deleted run jumps to a line of the same story, when one is left (R89). -/
def liveAfterDelete (k : Slot) (first : Nat) (run : List Nat) (s : State) : State :=
  match s.engine.live with
  | some p =>
    if p.block ∈ run then
      match s.script.afterRun k first with
      | some b => jump (some { block := b, sub := 0 }) s
      | none => s
    else s
  | none => s

/-- A delete report: the preview (R68), the live position (R89), a target (R91). -/
def takeDelete (k : Slot) (first : Nat) (run : List Nat) (s : State) : State :=
  endGoalIf (fun b => b ∈ run) (liveAfterDelete k first run (previewAfterDelete k first run s))

/-- Where the reading line goes when its story leaves the scroll: the first eligible story among the entries that
stood after it, or the last line of the last one before it, or VOID (R90). -/
def relocated (t : ScriptTable) (index : Nat) : Option Pos :=
  match t.firstEligible (t.order.drop index) with
  | some k => t.firstLine k
  | none => (t.firstEligible (t.order.take index).reverse).bind t.lastLine

/-- A story ineligible report: relocation out of the story (R90) and the end of a target in it (R91). -/
def takeIneligible (k : Slot) (index : Nat) (s : State) : State :=
  let s1 :=
    if s.engine.live.isSome ∧ s.engine.liveSlot = some k then
      jump (relocated s.script index) (enterHalted .scriptChange s)
    else s
  endGoalIf (fun b => (s1.script.locate b).map (·.1) = some k) s1

/-- A story eligible report: a VOID position goes to the first eligible story (R66). -/
def takeEligible (s : State) : State :=
  match s.engine.live with
  | some _ => s
  | none =>
    match (s.script.firstEligible s.script.order).bind s.script.firstLine with
    | some p => jump (some p) s
    | none => s

/-- The engine takes a script-change report. An insert and an order change leave every position where it is (R88). -/
def takeReport (r : ScriptReport) (s : State) : State :=
  match r with
  | .insert _ _ _ => s
  | .delete k first run => takeDelete k first run s
  | .ineligible k index => takeIneligible k index s
  | .eligible _ => takeEligible s
  | .orderChanged => s

/-- Take one report within another event: it keeps its own mark. -/
def takeWaiting (s : State) (m : Msg ScriptReport) : State :=
  (takeReport m.body (s.withCause m.req)).withCause s.cause

/-- Take every report that waits: a request's reports are one whole (R40; log 50). -/
def takeReports (s : State) : State :=
  s.mail.engineReports.foldl takeWaiting (s.withMail { s.mail with engineReports := [] })

/-- What the engine has done before it takes a further event: every report that waits is taken (R40, log 8). They are a
step of their own, so a transmitter that waits sends what they have listed at once (R183). -/
def engineReady (s : State) : State :=
  if s.mail.engineReports.isEmpty then s else sendIfIdle (takeReports s)

/-! ### The steps by which the engine takes messages -/

/-- FRAME_ADVANCE. -/
def execFrameAdvance (s : State) : Out :=
  ran (takeHead s.mail.engineFrames some (fun rest u => u.withMail { u.mail with engineFrames := rest })
    (fun frame u => frameAdvance frame (engineReady u)) s)

/-- The report of a kind at the head of the engine's channel, and with it every report behind it: a request's reports
are one whole, and nothing finds the engine between two of them (R40; log 50). -/
def takeReportIf (want : ScriptReport → Bool) (s : State) : State :=
  takeHead s.mail.engineReports (fun r => if want r then some r else none)
    (fun rest u => u.withMail { u.mail with engineReports := rest }) (fun r u => takeReports (takeReport r u)) s

/-- INSERT_REPORT. -/
def execInsertReport (s : State) : Out :=
  ran (takeReportIf (fun r => match r with | .insert _ _ _ => true | _ => false) s)

/-- DELETE_REPORT. -/
def execDeleteReport (s : State) : Out :=
  ran (takeReportIf (fun r => match r with | .delete _ _ _ => true | _ => false) s)

/-- STORY_INELIGIBLE_REPORT. -/
def execStoryIneligibleReport (s : State) : Out :=
  ran (takeReportIf (fun r => match r with | .ineligible _ _ => true | _ => false) s)

/-- STORY_ELIGIBLE_REPORT. -/
def execStoryEligibleReport (s : State) : Out :=
  ran (takeReportIf (fun r => match r with | .eligible _ => true | _ => false) s)

/-- ORDER_CHANGED_REPORT. -/
def execOrderChangedReport (s : State) : Out :=
  ran (takeReportIf (fun r => match r with | .orderChanged => true | _ => false) s)

/-! ### The moves of section 4.5, shared by requests, keys and the STOP action -/

/-- RUNNING from rest (R78, R86). -/
def Engine.run (e : Engine) : Engine := { e with motion := .running, velocity := 0 }

/-- STOPPING (R79): a step or glide target is cleared, the velocity kept but cut to the max speed. -/
def Engine.stop (e : Engine) : Engine :=
  match e.motion with
  | .halted | .stopping => e
  | .running | .stepping | .gliding =>
    { e with motion := .stopping, goal := none, velocity := cutTo e.settings.maxSpeed e.velocity }

/-- The target after a set target or a Set Speed; in GLIDING it also ends the glide (R84, R85). -/
def Engine.setTarget (e : Engine) (v : Int) : Engine :=
  let e' := { e with target := v }
  if e.motion = .gliding then { e' with goal := none, motion := .running, velocity := 0 } else e'

/-- The block a step of `count` lines goes to; none where the step would change nothing (R81). -/
def stepTarget (t : ScriptTable) (p : Pos) (count : Int) : Option Nat :=
  match t.reach p.block with
  | none => none
  | some r =>
    let k := count.natAbs
    if 0 < count then r.fore[min k r.fore.length - 1]?
    else if p.sub = 0 then r.back[min k r.back.length - 1]?
    else if k = 1 ∨ r.back.isEmpty then some p.block
    else r.back[min (k - 1) r.back.length - 1]?

/-- Begin a step of `count` lines from HALTED at a position that is not VOID (R81). -/
def beginStep (count : Int) (s : State) : State :=
  match s.engine.live.bind (fun p => stepTarget s.script p count) with
  | some b => s.withEngine { s.engine with
      motion := .stepping, goal := some { glide := false, block := b, framesLeft := 0 } }
  | none => s

/-- The start/stop key (R86). -/
def startStop (s : State) : State :=
  if s.engine.live.isNone then s
  else match s.engine.motion with
    | .halted =>
      if s.engine.settings.stepKeys then beginStep (if 0 ≤ s.engine.target then 1 else -1) s
      else s.withEngine s.engine.run
    | .running => s.withEngine s.engine.stop
    | .stopping => s.withEngine { s.engine with motion := .running }
    | .stepping | .gliding => enterHalted .request s

/-- A jog first halts the scroll, from another state than RUNNING and HALTED (R87). -/
def jogHalt (s : State) : State := if s.engine.motion = .running then s else enterHalted .request s

/-- A jog of `d` sublines (R87). What the Cue Monitor has left to do before it takes the span is done first: steps of
their own, ended before the jog's own begins (R183; log 10). -/
def jog (d : Int) (s : State) : State :=
  match s.engine.live with
  | none => s
  | some p =>
    match s.script.reach p.block with
    | none => jogHalt s
    | some r =>
      if d = 0 then jogHalt s
      else
        let x := travelSpan .fire (0 < d) p (r.travel p d).stop (jogHalt (cueReady s))
        designate (if x.2 then enterHalted .marker x.1 else x.1)

/-- The holder's input in a message of the given kind. -/
def takeInputIf (want : HolderInput → Option (State → State)) (s : State) : State :=
  takeHead s.mail.engineInput want (fun rest u => u.withMail { u.mail with engineInput := rest })
    (fun f u => f (engineReady u)) s

/-- SET_TARGET (R85). -/
def execSetTarget (s : State) : Out :=
  ran (takeInputIf (fun i => match i with
    | .setTarget v => some (fun u => u.withEngine (u.engine.setTarget (cutTo u.engine.settings.maxSpeed v)))
    | .key | .jog _ => none) s)

/-- START_STOP_KEY (R86). -/
def execStartStopKey (s : State) : Out :=
  ran (takeInputIf (fun i => match i with
    | .key => some startStop
    | .setTarget _ | .jog _ => none) s)

/-- JOG (R87). -/
def execJog (s : State) : Out :=
  ran (takeInputIf (fun i => match i with
    | .jog d => some (jog d)
    | .setTarget _ | .key => none) s)

/-- STOP_EXPIRY_ACTION (R79). -/
def execStopExpiryAction (s : State) : Out :=
  ran (takeHead s.mail.engineStops some (fun rest u => u.withMail { u.mail with engineStops := rest })
    (fun _ u => let u := engineReady u; u.withEngine u.engine.stop) s)

/-! ### Requests (R67, R70, R78 to R84, R93) -/

/-- Run (R78). -/
def runScroll (_body : List Byte) (s : State) : Answer :=
  match s.engine.motion with
  | .halted => if s.engine.live.isNone then refuse .state s else done [] (s.withEngine s.engine.run)
  | .running => done [] s
  | .stopping => done [] (s.withEngine { s.engine with motion := .running })
  | .stepping | .gliding => refuse .state s

/-- Stop (R79). -/
def stopScroll (_body : List Byte) (s : State) : Answer := done [] (s.withEngine s.engine.stop)

/-- Halt (R80). -/
def haltScroll (_body : List Byte) (s : State) : Answer := done [] (enterHalted .request s)

/-- Step (R81). -/
def stepScroll (body : List Byte) (s : State) : Answer :=
  let count := s8 body 0
  if count = 0 ∨ 16 < count.natAbs then refuse .range s
  else if s.engine.motion ≠ .halted ∨ s.engine.live.isNone then refuse .state s
  else done [] (beginStep count s)

/-- A GAP stands in the running order between two entries (R82). -/
def ScriptTable.gapBetween (t : ScriptTable) (i j : Nat) : Bool :=
  ((t.order.drop (min i j + 1)).take (max i j - min i j - 1)).any (fun e => t.standing e = .gap)

/-- An accepted Go To (R83). -/
def goTo (target : Nat) (frames : Nat) (p : Pos) (s : State) : State :=
  if frames = 0 ∨ p = { block := target, sub := 0 } then
    let s1 := if s.engine.motion = .halted then s.withEngine (s.engine.note .arrived s.clock.counter)
              else enterHalted .arrived s
    jump (some { block := target, sub := 0 }) s1
  else s.withEngine { s.engine with
    motion := .gliding, goal := some { glide := true, block := target, framesLeft := frames } }

/-- Go To (R82, R83). -/
def goToRequest (body : List Byte) (s : State) : Answer :=
  withSlot (u8 body 0) s (fun k =>
    let line := u16 body 1
    let frames := u8 body 3
    let y := s.script.stories[k]
    if 250 < frames ∨ (y.state ≠ .free ∧ y.lines.length ≤ line) then refuse .range s
    else if y.state = .free then refuse .noStory s
    else
      match s.engine.live, s.script.eligible k, y.lines[line]? with
      | some p, true, some b =>
        match (s.script.locate p.block).bind (fun a => s.script.entryIndex a.1), s.script.entryIndex k with
        | some i, some j =>
          if s.script.gapBetween i j then refuse .gap s else done [] (goTo b frames p s)
        | _, _ => refuse .state s
      | _, _, _ => refuse .state s)

/-- Set Speed (R84): the arbiter is asked for the holder (R126). -/
def setSpeed (body : List Byte) (s : State) : Answer :=
  let v := s16 body 0
  if s.engine.settings.maxSpeed < v.natAbs then refuse .range s
  else if s.arbiter.holder ≠ some .desk then refuse .notHolder s
  else done [] (s.withEngine (s.engine.setTarget v))

/-- The engine under new settings (R70). -/
def Engine.setMotion (e : Engine) (x : MotionSettings) : Engine :=
  { e with
    settings := x
    target := cutTo x.maxSpeed e.target
    velocity := if e.motion = .running ∨ e.motion = .stopping then cutTo x.maxSpeed e.velocity else e.velocity }

/-- Set Motion (R70). -/
def setMotion (body : List Byte) (s : State) : Answer :=
  let maxSpeed := u16 body 0
  let accel := u16 body 2
  let stepSpeed := u16 body 4
  match flagOf (u8 body 6) with
  | some keys =>
    if 1 ≤ maxSpeed ∧ maxSpeed ≤ 1024 ∧ 1 ≤ accel ∧ accel ≤ 256 ∧ 16 ≤ stepSpeed ∧ stepSpeed ≤ 1024 then
      done [] (s.withEngine (s.engine.setMotion
        { maxSpeed := maxSpeed, accel := accel, stepSpeed := stepSpeed, stepKeys := keys }))
    else refuse .range s
  | none => refuse .range s

/-- Set Preview (R67). -/
def setPreview (body : List Byte) (s : State) : Answer :=
  if u8 body 0 = 0xFF then done [] (s.withEngine { s.engine with preview := none })
  else withSlot (u8 body 0) s (fun k =>
    let line := u16 body 1
    let y := s.script.stories[k]
    match y.state with
    | .free => refuse .noStory s
    | .loading => if y.lines.length ≤ line then refuse .range s else refuse .state s
    | .ready =>
      match y.lines[line]? with
      | some b => done [] (s.withEngine { s.engine with preview := some b })
      | none => refuse .range s)

/-- The live position of a Query Motion reply (11.4). -/
def liveBytes (s : State) : List Byte :=
  match s.engine.live with
  | some p => 1 :: placeBytes s.script p.block ++ [byte p.sub] ++ two p.block
  | none => [0, 0, 0, 0, 0, 0, 0]

/-- The preview position of a Query Motion reply. -/
def previewBytes (s : State) : List Byte :=
  match s.engine.preview with
  | some b => 1 :: placeBytes s.script b ++ two b
  | none => [0, 0, 0, 0, 0, 0]

/-- The step or glide target of a Query Motion reply. R93 gives frames left for a glide alone; that byte of a step target
is a free value (log 46). -/
def goalBytes (s : State) : List Byte :=
  match s.engine.goal with
  | some g => (if g.glide then 2 else 1) :: placeBytes s.script g.block ++
      [if g.glide then byte g.framesLeft else Config.stepFramesLeft]
  | none => [0, 0, 0, 0, 0]

/-- Query Motion (R93, 11.4). -/
def queryMotion (_body : List Byte) (s : State) : Answer :=
  let e := s.engine
  done (liveBytes s ++ previewBytes s ++ stwo e.velocity ++ stwo e.target ++ [e.motion.code, e.haltCause.code]
    ++ twoOf e.haltFrame ++ goalBytes s ++ [sourceCode s.arbiter.holder, holderClassCode s.arbiter.holderClass]
    ++ two e.settings.maxSpeed ++ two e.settings.accel ++ two e.settings.stepSpeed ++ [flagByte e.settings.stepKeys]) s

/-- RUN. -/
def execRun (s : State) : Out := ran (runRequest 0x30 runScroll s)
/-- STOP. -/
def execStop (s : State) : Out := ran (runRequest 0x31 stopScroll s)
/-- HALT. -/
def execHalt (s : State) : Out := ran (runRequest 0x32 haltScroll s)
/-- STEP. -/
def execStep (s : State) : Out := ran (runRequest 0x33 stepScroll s)
/-- GO_TO. -/
def execGoTo (s : State) : Out := ran (runRequest 0x34 goToRequest s)
/-- SET_SPEED. -/
def execSetSpeed (s : State) : Out := ran (runRequest 0x35 setSpeed s)
/-- SET_MOTION. -/
def execSetMotion (s : State) : Out := ran (runRequest 0x36 setMotion s)
/-- SET_PREVIEW. -/
def execSetPreview (s : State) : Out := ran (runRequest 0x37 setPreview s)
/-- QUERY_MOTION. -/
def execQueryMotion (s : State) : Out := ran (runRequest 0x38 queryMotion s)

end Sys2Proof.Machine
end

