-- ==== Sys2Proof/Machine/Drive.lean ====
section
/-! DEFINITION. The Drive Arbiter (chapter 6): bars, the waiting list, claims, release, and its requests.
Each event is a change of the arbiter's own state; `arbiterEvent` then works the drive states out and sends the
Standing reports and the notice that the change calls for (R119, R121, R134). -/

namespace Sys2Proof.Machine

/-! ### Bars, drive states and the waiting list (R119, R120, R122) -/

/-- Whether a port is barred (R120). -/
def Arbiter.barred (a : Arbiter) (p : PortNo) : Bool :=
  match a.pin with
  | some q => q ≠ p
  | none =>
    match a.mode, a.classes[p] with
    | .operatorOnly, .presenter => true
    | .presenterOnly, .operator => true
    | _, _ => false

/-- A port's drive state as the rest of the arbiter's state determines it (R119). -/
def Arbiter.stateOf (a : Arbiter) (p : PortNo) : DriveState :=
  if a.holder = some (.port p) then .holding
  else if p ∈ a.joined then .waiting
  else if a.barred p then .barred
  else .idle

/-- The arbiter with its drive states worked out. -/
def Arbiter.settle (a : Arbiter) : Arbiter :=
  { a with driveStates := #v[a.stateOf 0, a.stateOf 1, a.stateOf 2, a.stateOf 3] }

/-- A port joins the waiting list (R122). -/
def Arbiter.join (a : Arbiter) (p : PortNo) : Arbiter :=
  if p ∈ a.joined then a else { a with joined := a.joined ++ [p] }

/-- A port leaves the waiting list. -/
def Arbiter.leave (a : Arbiter) (p : PortNo) : Arbiter := { a with joined := a.joined.filter (· ≠ p) }

/-- A port is granted the drive (R123). -/
def Arbiter.grant (a : Arbiter) (p : PortNo) : Arbiter := { a.leave p with holder := some (.port p) }

/-- The holding port gives up the drive to a Claim or a Claim Drive: it joins the list if active (R124). -/
def Arbiter.yield (a : Arbiter) : Arbiter :=
  match a.holder with
  | some (.port q) => if a.active[q] then { a.join q with holder := none } else { a with holder := none }
  | _ => a

/-- The holder releases the drive, and the next holder is chosen (R125). -/
def Arbiter.release (a : Arbiter) : Arbiter :=
  let a := { a with holder := none }
  if a.deskClaim then { a with holder := some .desk }
  else match a.pin with
    | some p =>
      if a.enabled[p] then a.grant p
      else match a.waiting with
        | q :: _ => a.grant q
        | [] => a
    | none =>
      match a.waiting with
      | q :: _ => a.grant q
      | [] => a

/-- Release the drive if a port holds it that the test names. -/
def Arbiter.releaseIf (a : Arbiter) (test : PortNo → Bool) : Arbiter :=
  match a.holder with
  | some (.port q) => if test q then a.release else a
  | _ => a

/-- The bars worked out again: barred ports leave the list, and a barred holder releases (R120). -/
def Arbiter.rebar (a : Arbiter) : Arbiter :=
  let a := { a with joined := a.joined.filter (fun p => !a.barred p) }
  a.releaseIf a.barred

/-! ### Events -/

/-- The class of the holding port, when a port holds. -/
def Arbiter.heldClass (a : Arbiter) : Option PortClass :=
  match a.holder with
  | some (.port p) => some a.classes[p]
  | _ => none

/-- Whether a change calls for Drive Changed: holder, holding port's class, pin or mode (R134). -/
def driveChanged (a b : Arbiter) : Bool :=
  a.holder ≠ b.holder || a.heldClass ≠ b.heldClass || a.pin ≠ b.pin || a.mode ≠ b.mode

/-- Send a port a Standing report when its drive state or class has changed (R121). -/
def reportStanding (a b : Arbiter) (s : State) (p : PortNo) : State :=
  if a.driveStates[p] = b.driveStates[p] ∧ a.classes[p] = b.classes[p] then s
  else sendStanding p b.driveStates[p] b.classes[p] s

/-- Put a changed arbiter in force: the drive states, the Standing reports, Drive Changed (R119, R121, R134). -/
def putArbiter (b : Arbiter) (s : State) : State :=
  let a := s.arbiter
  let b := b.settle
  let t := (List.finRange 4).foldl (reportStanding a b) (s.withArbiter b)
  if driveChanged a b then raise .driveChanged t else t

/-- An event of the arbiter. -/
def arbiterEvent (f : Arbiter → Arbiter) (s : State) : State := putArbiter (f s.arbiter) s

/-! ### What ports send (R123, R126, R127) -/

def Arbiter.setActive (a : Arbiter) (p : PortNo) (b : Bool) : Arbiter := { a with active := a.active.set p.val b p.isLt }
def Arbiter.setEnabled (a : Arbiter) (p : PortNo) (b : Bool) : Arbiter :=
  { a with enabled := a.enabled.set p.val b p.isLt }

/-- A Claim (R123). A port that is not recorded as ENABLED can neither hold nor wait (R119; log 14). -/
def Arbiter.claim (a : Arbiter) (p : PortNo) : Arbiter :=
  let a := a.setActive p true
  if a.barred p ∨ !a.enabled[p] then a
  else match a.holder with
    | none => a.grant p
    | some .desk => a.join p
    | some (.port q) =>
      if q = p then a
      else if a.mode = .operatorFirst ∧ a.classes[p] = .operator ∧ a.classes[q] = .presenter then
        a.yield.grant p
      else a.join p

/-- An Idle (R127). -/
def Arbiter.idle (a : Arbiter) (p : PortNo) : Arbiter :=
  let a := (a.setActive p false).leave p
  if a.holder = some (.port p) ∧ a.pin ≠ some p then a.release else a

/-- A Port Ready (R126). -/
def Arbiter.ready (a : Arbiter) (p : PortNo) : Arbiter :=
  let a := (a.setActive p false).setEnabled p true
  if a.pin = some p ∧ !a.deskClaim ∧ a.holder = none then a.grant p else a

/-- A Port Gone (R126). -/
def Arbiter.gone (a : Arbiter) (p : PortNo) : Arbiter :=
  let a := ((a.setActive p false).setEnabled p false).leave p
  a.releaseIf (· = p)

/-- The arbiter takes a port's input: passed to the Scroll Engine if the port holds the drive, else discarded (R126). That
input formed before the port lost the drive passes when the port has regained it by the time the arbiter takes it, though
it has crossed the Standing report of the loss on its way, is the model's choice (log 53). -/
def passInput (p : PortNo) (x : HolderInput) (s : State) : State :=
  if s.arbiter.holder = some (.port p) then sendInput x s else s

/-- The input in a port's message. -/
def PortMsg.asInput : PortMsg → Option HolderInput
  | .setTarget v => some (.setTarget v)
  | .key => some .key
  | .jog d => some (.jog d)
  | .claim | .idle | .ready | .gone => none

/-- The oldest message of a port to the arbiter, when it is one the test names (R119). -/
def takePortMsg {β : Type} (p : PortNo) (want : PortMsg → Option β) (f : β → State → State) (s : State) : State :=
  takeHead s.mail.toArbiter[p] want
    (fun rest u => u.withMail { u.mail with toArbiter := u.mail.toArbiter.set p.val rest p.isLt }) f s

/-- A message of one kind. -/
def PortMsg.isMsg (x : PortMsg) (m : PortMsg) : Option Unit := if m = x then some () else none

/-- CLAIM. -/
def execClaim (p : PortNo) (s : State) : Out :=
  ran (takePortMsg p (PortMsg.isMsg .claim) (fun _ => arbiterEvent (·.claim p)) s)
/-- IDLE. -/
def execIdle (p : PortNo) (s : State) : Out :=
  ran (takePortMsg p (PortMsg.isMsg .idle) (fun _ => arbiterEvent (·.idle p)) s)
/-- PORT_READY. -/
def execPortReady (p : PortNo) (s : State) : Out :=
  ran (takePortMsg p (PortMsg.isMsg .ready) (fun _ => arbiterEvent (·.ready p)) s)
/-- PORT_GONE. -/
def execPortGone (p : PortNo) (s : State) : Out :=
  ran (takePortMsg p (PortMsg.isMsg .gone) (fun _ => arbiterEvent (·.gone p)) s)
/-- PASS_HOLDER_INPUT. -/
def execPassHolderInput (p : PortNo) (s : State) : Out :=
  ran (takePortMsg p PortMsg.asInput (passInput p) s)

/-! ### Requests (R129 to R133, R135) -/

/-- Claim Drive on the arbiter (R129). -/
def Arbiter.claimDesk (a : Arbiter) : Arbiter := { a.yield with deskClaim := true, holder := some .desk }

/-- Claim Drive (R129): nothing changes while the desk claim already stands. -/
def claimDrive (_body : List Byte) (s : State) : Answer :=
  done [] (if s.arbiter.deskClaim then s else arbiterEvent Arbiter.claimDesk s)

/-- Release Drive (R130). -/
def releaseDrive (_body : List Byte) (s : State) : Answer :=
  if s.arbiter.deskClaim then done [] (arbiterEvent (fun a => { a with deskClaim := false }.release) s)
  else refuse .notHolder s

/-- Remove the pin (R131): the bars follow the mode, and the old pinned port keeps the drive only if it is active and
not barred. -/
def Arbiter.unpin (a : Arbiter) : Arbiter :=
  match a.pin with
  | none => a
  | some old =>
    let a := { a with pin := none }
    let a := { a with joined := a.joined.filter (fun p => !a.barred p) }
    a.releaseIf (fun q => q = old && (!a.active[old] || a.barred old))

/-- Set a pin on a port, none standing (R131). -/
def Arbiter.setPin (a : Arbiter) (p : PortNo) : Arbiter :=
  let a := { a with pin := some p, joined := a.joined.filter (· = p) }
  if a.deskClaim then a
  else if a.enabled[p] then a.grant p
  else a.releaseIf (fun _ => true)

/-- Clear the pin or move it to a port (R131). -/
def Arbiter.movePin (a : Arbiter) (x : Option PortNo) : Arbiter :=
  match x with
  | none => a.unpin
  | some p => a.unpin.setPin p

/-- Pin Drive on the state: the pin already in force changes nothing (R131). -/
def pinTo (x : Option PortNo) (s : State) : State :=
  if s.arbiter.pin = x then s else arbiterEvent (·.movePin x) s

/-- Pin Drive (R131). -/
def pinDrive (body : List Byte) (s : State) : Answer :=
  if u8 body 0 = 0xFF then done [] (pinTo none s)
  else withFour (u8 body 0) s (fun p => done [] (pinTo (some p) s))

/-- Set Drive Mode (R132). -/
def setDriveMode (body : List Byte) (s : State) : Answer :=
  match DriveMode.ofCode (u8 body 0) with
  | some m => done [] (if s.arbiter.mode = m then s else arbiterEvent (fun a => { a with mode := m }.rebar) s)
  | none => refuse .range s

/-- Set Port Class (R133). -/
def setPortClass (body : List Byte) (s : State) : Answer :=
  withFour (u8 body 0) s (fun p =>
    match PortClass.ofCode (u8 body 1) with
    | some c =>
      done [] (if s.arbiter.classes[p] = c then s
        else arbiterEvent (fun a => { a with classes := a.classes.set p.val c p.isLt }.rebar) s)
    | none => refuse .range s)

/-- Query Drive (R135; log 15). -/
def queryDrive (_body : List Byte) (s : State) : Answer :=
  let a := s.arbiter
  done ([sourceCode a.holder, holderClassCode a.holderClass, flagByte a.deskClaim, portByte a.pin, a.mode.code]
    ++ a.waitingBytes
    ++ (List.finRange 4).flatMap (fun p =>
      [a.classes[p].code, a.driveStates[p].code, flagByte a.enabled[p], flagByte a.active[p]])) s

/-- SET_DRIVE_MODE. -/
def execSetDriveMode (s : State) : Out := ran (runRequest 0x40 setDriveMode s)
/-- SET_PORT_CLASS. -/
def execSetPortClass (s : State) : Out := ran (runRequest 0x41 setPortClass s)
/-- PIN_DRIVE. -/
def execPinDrive (s : State) : Out := ran (runRequest 0x42 pinDrive s)
/-- CLAIM_DRIVE. -/
def execClaimDrive (s : State) : Out := ran (runRequest 0x43 claimDrive s)
/-- RELEASE_DRIVE. -/
def execReleaseDrive (s : State) : Out := ran (runRequest 0x44 releaseDrive s)
/-- QUERY_DRIVE. -/
def execQueryDrive (s : State) : Out := ran (runRequest 0x45 queryDrive s)

/-! ### Resets (R136, R137) -/

/-- The arbiter under a MOTION reset without ALL: the enabled views are kept (R137). -/
def Arbiter.motionReset (a : Arbiter) : Arbiter := { Arbiter.reset with enabled := a.enabled }

/-- The arbiter under a PORTS reset without ALL (R137). -/
def Arbiter.portsReset (a : Arbiter) : Arbiter :=
  { a with
    enabled := Vector.replicate 4 false, active := Vector.replicate 4 false, joined := []
    holder := if a.deskClaim then some .desk else none }

/-- The arbiter under a reset scope. -/
def Arbiter.scopeReset (a : Arbiter) (x : Scope) : Arbiter :=
  if x.all then Arbiter.reset
  else
    let a := if x.motion then a.motionReset else a
    if x.ports then a.portsReset else a

end Sys2Proof.Machine
end

