-- ==== Sys2Proof/Machine/Port.lean ====
section
/-! DEFINITION. The control ports (chapter 5): attaching, polls, reports and their mappings, lamps, requests. -/

namespace Sys2Proof.Machine

/-- Change one port. -/
def updatePort (p : PortNo) (f : Port → Port) (s : State) : State := s.withPort p (f s.ports[p])

/-! ### Lamps (R112, R113) -/

/-- The automatic pattern (R113). -/
def Port.autoPattern (q : Port) : Pattern :=
  if q.flash ∧ q.cls = .presenter then { on := 5, off := 5 }
  else match q.drive, q.pickup with
    | .holding, .pickedUp => { on := 1, off := 0 }
    | .holding, .waiting => { on := 10, off := 10 }
    | .waiting, _ => { on := 25, off := 25 }
    | .idle, _ => { on := 0, off := 0 }
    | .barred, _ => { on := 0, off := 0 }

/-- Find the pattern in force again; a change restarts the phase (R112, R113). -/
def Port.relamp (q : Port) : Port :=
  let x := q.lampOverride.getD q.autoPattern
  if x = q.pattern then q else { q with pattern := x, phase := 0 }

/-- The lamp output of the next Poll (R112). -/
def Port.lampOut (q : Port) : Bool := q.phase < q.pattern.on

/-- The phase after a Poll (R112). -/
def Port.nextPhase (q : Port) : Nat := if q.phase + 1 < q.pattern.on + q.pattern.off then q.phase + 1 else 0

/-! ### Steps that a port makes by itself after a poll -/

/-- A port that leaves ENABLED for a fault, presence lost or Reset Port sets its enable change flag and sends Port
Gone; `was` is its state before (R98, R100, R103, R104). -/
def leaveEnabled (was : PortState) (p : PortNo) (s : State) : State :=
  if was = .enabled then sendArbiter p .gone (setChange .enable p s) else s

/-- Enter FAULTED (R99, R100). -/
def enterFaulted (c : FaultCause) (p : PortNo) (s : State) : State :=
  let was := s.ports[p].state
  leaveEnabled was p (setChange .fault p (updatePort p (fun q =>
    { q with state := .faulted, fault := some c, releaseDue := false }) s))

/-- The Idle that is due, sent once (R105). -/
def sendIdle (p : PortNo) (s : State) : State :=
  if s.ports[p].releaseDue then
    sendArbiter p .idle (updatePort p (fun q => { q with releaseDue := false, idleSent := true }) s)
  else s

/-- The fault that is due to a silence count at its limit (R99, R100). It is a step of its own, so a transmitter that waits
sends its notice before the port takes a further event (R183). -/
def silenceFault (p : PortNo) (s : State) : State :=
  if s.ports[p].silenceDue then sendIfIdle (enterFaulted .silent p s) else s

/-- What a port has done before it takes a further event: the rest of its last poll (log 10, log 22). -/
def portReady (p : PortNo) (s : State) : State := silenceFault p (sendIdle p s)

/-- An event of a port. -/
def portEvent (p : PortNo) (f : State → State) (s : State) : State := event false (fun u => f (portReady p u)) s

/-! ### Polls (R97, R105, R112) -/

/-- Send a Poll with the lamp output for the coming 10 ms (R97). -/
def sendPoll (now : Nat) (q : Port) : Port :=
  { q with pollOut := portFrame 0x01 [flagByte q.lampOut], phase := q.nextPhase, nextPoll := now + Config.pollTime,
           answered := false, rx := .hunting }

/-- A poll not answered by an active report adds 1 to the idle count until Idle is sent (R105). -/
def Port.moreIdle (q : Port) : Port := if q.idleSent then q else { q with idle := min (q.idle + 1) 1000 }

/-- Idle falls due when the idle count has reached the release time (R105). -/
def Port.judgeIdle (q : Port) : Port :=
  { q with releaseDue := q.state = .enabled ∧ !q.idleSent ∧ q.common.releaseTime ≤ q.idle }

/-- Close the previous poll: an unanswered one adds to the silence count, and in ENABLED to the idle count (R97,
R105). -/
def Port.closePoll (q : Port) : Port :=
  let q := if q.answered then q else { q with silence := min (q.silence + 1) 10 }
  let q := if !q.answered ∧ q.state = .enabled then q.moreIdle else q
  q.judgeIdle

/-- A port polls in these states (R97). -/
def PortState.polls : PortState → Bool
  | .identifying | .attached | .enabled => true
  | .detached | .faulted => false

/-- A Poll is due. -/
def Port.pollDue (q : Port) (now : Nat) : Bool := q.state.polls && q.nextPoll ≤ now

/-- The poll of a port: the previous one is closed, and unless that brings a fault the next is sent. -/
def Port.poll (q : Port) (now : Nat) : Port :=
  let q := q.closePoll
  if q.silenceDue then { q with rx := .hunting } else sendPoll now q

/-- POLL. -/
def execPoll (p : PortNo) (s : State) : Out :=
  ran (portEvent p (fun u => if u.ports[p].pollDue u.now then updatePort p (·.poll u.now) u else u) s)

/-- SILENCE_FAULT. -/
def execSilenceFault (p : PortNo) (s : State) : Out :=
  ran (event false (fun u => silenceFault p (sendIdle p u)) s)

/-- RELEASE_TIME_REACHED. -/
def execReleaseTimeReached (p : PortNo) (s : State) : Out := ran (event false (sendIdle p) s)

/-! ### Attaching and detaching (R98 to R103) -/

/-- No strip baselines, acquisition not begun. -/
def Port.clearStrip (q : Port) : Port :=
  { q with baselines := Vector.replicate 5 0, sums := Vector.replicate 5 0, acquired := 0 }

/-- The latched reverse, the mapped target and last sent cleared. -/
def Port.clearInput (q : Port) : Port :=
  { q with reverse := false, mapped := none, prevMapped := none, lastSent := none }

/-- A port as it enters DETACHED: supply off, nothing known of the control (R98, R103). -/
def Port.detach (q : Port) (now : Nat) : Port :=
  { q.clearStrip.clearInput with
    state := .detached, fault := none, kind := none, supply := false, releaseDue := false, rx := .hunting,
    watchFrom := now }

/-- PRS has been watched long enough for an unbroken 20 ms (R98). -/
def Port.watched (q : Port) (now : Nat) : Bool := q.watchFrom + Config.presenceTime ≤ now

/-- PRESENCE_FOUND (R98). -/
def execPresenceFound (p : PortNo) (s : State) : Out :=
  ran (portEvent p (fun u =>
    let q := u.ports[p]
    if q.state = .detached ∧ q.holdOff.isNone ∧ q.watched u.now then
      setChange .connect p (updatePort p (fun q =>
        sendPoll u.now { q with state := .identifying, supply := true, silence := 0, watchFrom := u.now }) u)
    else u) s)

/-- PRESENCE_LOST (R98). -/
def execPresenceLost (p : PortNo) (s : State) : Out :=
  ran (portEvent p (fun u =>
    let q := u.ports[p]
    if q.state ≠ .detached ∧ q.watched u.now then
      leaveEnabled q.state p (setChange .connect p (updatePort p (·.detach u.now) u))
    else u) s)

/-- HOLD_OFF_END (R103): PRS is watched from now. -/
def execHoldOffEnd (p : PortNo) (s : State) : Out :=
  ran (portEvent p (fun u =>
    match u.ports[p].holdOff with
    | some t => if t ≤ u.now then updatePort p (fun q => { q with holdOff := none, watchFrom := u.now }) u else u
    | none => u) s)

/-- OVERCURRENT (R100). -/
def execOvercurrent (p : PortNo) (s : State) : Out :=
  ran (portEvent p (fun u =>
    if u.ports[p].supply then enterFaulted .supply p (updatePort p (fun q => { q with supply := false }) u) else u) s)

/-- Enter ENABLED (R99, R102). -/
def enterEnabled (p : PortNo) (s : State) : State :=
  sendArbiter p .ready (updatePort p (fun q =>
    { q with state := .enabled, idle := 0, idleSent := false, releaseDue := false }) s)

/-- The pickup state a grant or a Hello gives a holding port (R99, R111). -/
def Port.freshPickup (q : Port) : Pickup :=
  match q.kind with
  | some .strip | some .pedal => if 0 < q.common.tolerance then .waiting else .pickedUp
  | some .wheel | none => .pickedUp

/-- A Hello taken by a port (R99). -/
def takeHello (k : Kind) (p : PortNo) (s : State) : State :=
  let was := s.ports[p].state
  let s := updatePort p (fun q =>
    { q.clearInput with kind := some k, sums := Vector.replicate 5 0, acquired := 0, silence := 0,
                        answered := true }) s
  match was with
  | .identifying =>
    let s := updatePort p (fun q => { q with state := .attached }) s
    if s.ports[p].common.autoEnable then enterEnabled p s else s
  | _ =>
    let s := updatePort p (fun q =>
      if q.drive = .holding then { q with pickup := q.freshPickup }.relamp else q) s
    if was = .enabled then updatePort p (fun q => q.moreIdle.judgeIdle) s else s

/-! ### Data reports (R105 to R111) -/

/-- Touch of a segment: its weight is the raw count over its baseline (R108, R109). -/
def Port.weight (q : Port) (counts : Vector Nat 5) (i : Fin 5) : Nat :=
  if q.acquired = 8 ∧ q.baselines[i] + q.strip.threshold ≤ counts[i] then counts[i] - q.baselines[i] else 0

/-- The places of the five segments (R109). -/
def segmentAt : Vector Nat 5 := #v[0, 64, 128, 192, 255]

/-- Whether a segment is touched. -/
def Port.touched (q : Port) (counts : Vector Nat 5) : Bool :=
  (List.finRange 5).any (fun i => 0 < q.weight counts i)

/-- A baseline moved 1 toward the raw count, when it differs by less than half the threshold (R108). -/
def drift (threshold baseline count : Nat) : Nat :=
  if baseline < count ∧ count - baseline < threshold / 2 then baseline + 1
  else if count < baseline ∧ baseline - count < threshold / 2 then baseline - 1
  else baseline

/-- The strip baselines after a report: acquisition over the first eight, then tracking while nothing is touched
(R108; log 17). -/
def Port.trackStrip (q : Port) (counts : Vector Nat 5) : Port :=
  if q.acquired < 8 then
    let sums := Vector.zipWith (· + ·) q.sums counts
    { q with
      acquired := q.acquired + 1, sums := sums
      baselines := if q.acquired = 7 then sums.map (· / 8) else q.baselines }
  else if q.touched counts then q
  else { q with baselines := Vector.zipWith (drift q.strip.threshold) q.baselines counts }

/-- The touch position: the centroid of the touched segments, rounded down (R109). -/
def Port.touchAt (q : Port) (counts : Vector Nat 5) : Nat :=
  ((List.finRange 5).map (fun i => q.weight counts i * segmentAt[i])).sum /
    ((List.finRange 5).map (q.weight counts)).sum

/-- The mapped target of a report (R109, R110); a WHEEL has none. -/
def Port.mapReport (q : Port) (d : DataReport) : Option Int :=
  match d with
  | .wheel _ _ => none
  | .strip counts _ =>
    if q.touched counts then some ((((q.touchAt counts : Int) - 128) * q.strip.gain).tdiv 16)
    else match q.strip.style with
      | .hold => none
      | .zero => some 0
  | .pedal level _ =>
    if level ≤ q.pedal.deadBand then some 0
    else
      let m : Int := ((level - q.pedal.deadBand) * q.pedal.gain / 16 : Nat)
      some (if q.reverse then -m else m)

/-- The keys of a report. -/
def DataReport.keys : DataReport → Keys
  | .wheel _ k => k
  | .strip _ k => k
  | .pedal _ k => k

/-- Whether a report is active (R105). -/
def Port.isActive (q : Port) (d : DataReport) : Bool :=
  d.keys.startStop || d.keys.reverse || d.keys.claim ||
  match d with
  | .wheel delta _ => delta ≠ 0
  | .strip counts _ => q.touched counts
  | .pedal level _ => q.pedal.deadBand < level

/-- A previous mapped target lies on the other side of the target from the new one, or the new one is on it (R111). -/
def crosses (prev : Option Int) (m t : Int) : Bool :=
  match prev with
  | none => false
  | some x => (x < t ∧ t ≤ m) ∨ (t < x ∧ m ≤ t)

/-- The pickup state after a report formed with mapped target `m` against target `t` (R111). -/
def Port.pickupWith (q : Port) (m t : Int) : Pickup :=
  if q.pickup = .pickedUp ∨ (m - t).natAbs ≤ q.common.tolerance ∨ crosses q.prevMapped m t then .pickedUp
  else .waiting

/-- The Set Target of a wheel report, if any (R107). -/
def Port.wheelTarget (q : Port) (delta : Int) (reverse : Bool) (t : Int) : Option Int :=
  match q.wheel.style with
  | .speed =>
    if delta ≠ 0 ∨ reverse then
      let v := t + delta * q.wheel.speedStep
      some (if reverse then -v else v)
    else none
  | .jog => if reverse then some (-t) else none

/-- The jog of a wheel report, if any (R107). -/
def Port.wheelJog (q : Port) (delta : Int) : Option Int :=
  match q.wheel.style with
  | .speed => none
  | .jog => if delta ≠ 0 then some (delta * q.wheel.jogSize) else none

/-- The Set Target of a strip or pedal with its pickup state found: sent when picked up and not the last sent
(R111). -/
def Port.absoluteTarget (q : Port) (m : Option Int) : Option Int :=
  match m with
  | some v => if q.pickup = .pickedUp ∧ q.lastSent ≠ some v then some v else none
  | none => none

/-- Send a message when there is one. -/
def sendSome (p : PortNo) (x : Option PortMsg) (s : State) : State :=
  match x with
  | some m => sendArbiter p m s
  | none => s

/-- Form input from a report and send it: a Set Target, a START_STOP press, a jog, in that order (R106). The target is
read from the Scroll Engine as it stands. -/
def formInput (p : PortNo) (d : DataReport) (s : State) : State :=
  let t := s.engine.target
  let key : Option PortMsg := if d.keys.startStop then some .key else none
  match d with
  | .wheel delta k =>
    let q := s.ports[p]
    sendSome p ((q.wheelJog delta).map .jog)
      (sendSome p key (sendSome p ((q.wheelTarget delta k.reverse t).map .setTarget) s))
  | .strip _ _ | .pedal _ _ =>
    let s := updatePort p (fun q =>
      match q.mapped with
      | some m => { q with pickup := q.pickupWith m t }.relamp
      | none => q) s
    let q := s.ports[p]
    let v := q.absoluteTarget q.mapped
    sendSome p key (sendSome p (v.map .setTarget) (updatePort p (fun q => { q with lastSent := v.or q.lastSent }) s))

/-- The part of a report that every port takes, ATTACHED or ENABLED: it answers the poll and moves the baselines. -/
def Port.noteReport (q : Port) (d : DataReport) : Port :=
  let q := match d with
    | .strip counts _ => q.trackStrip counts
    | .wheel _ _ | .pedal _ _ => q
  { q with silence := 0, answered := true }

/-- The part of a report that a port takes in ENABLED: the latched reverse and the mapped target. `at` is the port
before the baselines moved (R108 to R110; log 18, log 21). -/
def Port.mapInput (q : Port) (before : Port) (d : DataReport) : Port :=
  let reverse := match d with
    | .pedal _ k => q.reverse != k.reverse
    | .wheel _ _ | .strip _ _ => q.reverse
  { q with reverse := reverse, prevMapped := q.mapped, mapped := { before with reverse := reverse }.mapReport d }

/-- A data report of the port's kind (R105, R106). -/
def takeData (d : DataReport) (p : PortNo) (s : State) : State :=
  let q := s.ports[p]
  let s := updatePort p (·.noteReport d) s
  if q.state = .enabled then
    let s := updatePort p (·.mapInput q d) s
    let s :=
      if q.isActive d then sendArbiter p .claim (updatePort p (fun q => { q with idle := 0, idleSent := false }) s)
      else updatePort p (fun q => q.moreIdle.judgeIdle) s
    if q.drive = .holding then formInput p d s else s
  else s

/-- A whole frame on PDAT: taken when the port can take it in its state (R97), else discarded. -/
def takeReportFrame (p : PortNo) (kind : Byte) (body : List Byte) (s : State) : State :=
  let q := s.ports[p]
  match PortReport.ofFrame kind body with
  | some (.hello k) => takeHello k p s
  | some (.data d) =>
    if (q.state = .attached ∨ q.state = .enabled) ∧ q.kind = some d.kind then takeData d p s else s
  | none => s

/-- The port listens for a Report: it polls, its last Poll has not been answered, and the next is not yet due (R97;
log 19). -/
def Port.listens (q : Port) (now : Nat) : Bool := q.state.polls && !q.answered && now < q.nextPoll

/-- One character on PDAT. -/
def portChar (p : PortNo) (s : State) (c : LineChar) : State :=
  let q := s.ports[p]
  if q.listens s.now then
    let r := portRxTake q.rx c
    let s := updatePort p (fun q => { q with rx := r.1 }) s
    match r.2 with
    | some (kind, body) => takeReportFrame p kind body s
    | none => s
  else s

/-- Characters on PDAT, one after another. -/
def portChars (p : PortNo) (chars : List LineChar) (s : State) : State := chars.foldl (portChar p) s

/-- HELLO. -/
def execHello (p : PortNo) (chars : List LineChar) (s : State) : Out := ran (portEvent p (portChars p chars) s)

/-- DATA_REPORT. -/
def execDataReport (p : PortNo) (chars : List LineChar) (s : State) : Out := ran (portEvent p (portChars p chars) s)

/-! ### Standing and flash (R111, R113, R121) -/

/-- A port takes its new standing; a grant clears last sent and sets the pickup state (R111). -/
def Port.takeStanding (q : Port) (d : DriveState) (c : PortClass) : Port :=
  let q := if q.drive ≠ .holding ∧ d = .holding then { q with lastSent := none, pickup := q.freshPickup } else q
  { q with drive := d, cls := c }.relamp

/-- STANDING_REPORT. -/
def execStandingReport (p : PortNo) (s : State) : Out :=
  ran (takeHead s.mail.standing[p] some
    (fun rest u => u.withMail { u.mail with standing := u.mail.standing.set p.val rest p.isLt })
    (fun x u => updatePort p (·.takeStanding x.1 x.2) (portReady p u)) s)

/-- A Lamp Flash or Lamp Flash End that waits at a port. -/
def takeFlashIf (on : Bool) (p : PortNo) (s : State) : State :=
  takeHead s.mail.flash[p] (fun b => if b = on then some () else none)
    (fun rest u => u.withMail { u.mail with flash := u.mail.flash.set p.val rest p.isLt })
    (fun _ u => updatePort p (fun q => { q with flash := on }.relamp) (portReady p u)) s

/-- LAMP_FLASH. -/
def execLampFlash (p : PortNo) (s : State) : Out := ran (takeFlashIf true p s)
/-- LAMP_FLASH_END. -/
def execLampFlashEnd (p : PortNo) (s : State) : Out := ran (takeFlashIf false p s)

/-! ### Requests (R102, R103, R114 to R116) -/

/-- Enable Port (R102). -/
def enablePort (body : List Byte) (s : State) : Answer :=
  withFour (u8 body 0) s (fun p =>
    if s.ports[p].state = .attached then done [] (enterEnabled p s) else refuse .state s)

/-- Disable Port (R102). -/
def disablePort (body : List Byte) (s : State) : Answer :=
  withFour (u8 body 0) s (fun p =>
    if s.ports[p].state = .enabled then
      done [] (sendArbiter p .gone (updatePort p (fun q =>
        { q with state := .attached, mapped := none, prevMapped := none, lastSent := none }) s))
    else refuse .state s)

/-- The virtual disconnect of a port, with its hold-off (R103). -/
def Port.disconnect (q : Port) (now : Nat) : Port :=
  { q.detach now with holdOff := some (now + Config.holdOffTime) }

/-- Reset Port (R103). -/
def resetPort (body : List Byte) (s : State) : Answer :=
  withFour (u8 body 0) s (fun p =>
    let was := s.ports[p].state
    let s1 := updatePort p (·.disconnect s.now) s
    let s2 := if was = .detached then s1 else setChange .connect p s1
    done [] (leaveEnabled was p s2))

/-- The common record of a Set Port body; none for Range (R115). -/
def parseCommon (body : List Byte) : Option CommonSettings :=
  let release := u16 body 2
  let tolerance := u8 body 4
  match flagOf (u8 body 1) with
  | some auto =>
    if 10 ≤ release ∧ release ≤ 1000 ∧ tolerance ≤ 64 then
      some { autoEnable := auto, releaseTime := release, tolerance := tolerance }
    else none
  | none => none

/-- A kind part. -/
inductive KindPart where
  | wheel (x : WheelSettings)
  | strip (x : StripSettings)
  | pedal (x : PedalSettings)
  deriving DecidableEq, Repr

/-- The kind part of a Set Port body: none for Range, `some none` when no kind part is given (R115). -/
def parseKindPart (body : List Byte) : Option (Option KindPart) :=
  match u8 body 5 with
  | 0 => some none
  | 1 =>
    let step := u8 body 7
    let size := u16 body 8
    match WheelStyle.ofCode (u8 body 6) with
    | some style =>
      if 1 ≤ step ∧ step ≤ 64 ∧ 1 ≤ size ∧ size ≤ 256 then
        some (some (.wheel { style := style, speedStep := step, jogSize := size })) else none
    | none => none
  | 2 =>
    let threshold := u16 body 7
    let gain := u8 body 9
    match StripStyle.ofCode (u8 body 6) with
    | some style =>
      if 16 ≤ threshold ∧ threshold ≤ 1023 ∧ 1 ≤ gain ∧ gain ≤ 64 then
        some (some (.strip { style := style, threshold := threshold, gain := gain })) else none
    | none => none
  | 3 =>
    let band := u8 body 6
    let gain := u8 body 7
    if band ≤ 64 ∧ 1 ≤ gain ∧ gain ≤ 64 then some (some (.pedal { deadBand := band, gain := gain })) else none
  | _ => none

/-- The kind a kind part names. -/
def KindPart.kind : KindPart → Kind
  | .wheel _ => .wheel
  | .strip _ => .strip
  | .pedal _ => .pedal

/-- Take a kind part. -/
def Port.withKindPart (q : Port) : KindPart → Port
  | .wheel x => { q with wheel := x }
  | .strip x => { q with strip := x }
  | .pedal x => { q with pedal := x }

/-- Set Port (R115). -/
def setPort (body : List Byte) (s : State) : Answer :=
  withFour (u8 body 0) s (fun p =>
    match parseCommon body, parseKindPart body with
    | some common, some none => done [] (updatePort p (fun q => { q with common := common }) s)
    | some common, some (some part) =>
      match s.ports[p].kind with
      | none => refuse .state s
      | some k =>
        if k = part.kind then done [] (updatePort p (fun q => { q.withKindPart part with common := common }) s)
        else refuse .range s
    | _, _ => refuse .range s)

/-- Set Lamp (R114). -/
def setLamp (body : List Byte) (s : State) : Answer :=
  withFour (u8 body 0) s (fun p =>
    match u8 body 1 with
    | 0 => done [] (updatePort p (fun q => { q with lampOverride := none }.relamp) s)
    | 1 =>
      let on := u16 body 2
      let off := u16 body 4
      if on ≤ 255 ∧ off ≤ 255 then
        done [] (updatePort p (fun q => { q with lampOverride := some { on := on, off := off } }.relamp) s)
      else refuse .range s
    | _ => refuse .range s)

/-- The results of Query Port, in the order R116 lists them (log 15). -/
def portBytes (q : Port) : List Byte :=
  [q.state.code, faultCauseCode q.fault, kindCode q.kind, q.changeByte]
  ++ [flagByte q.common.autoEnable] ++ two q.common.releaseTime ++ [byte q.common.tolerance]
  ++ [q.wheel.style.code, byte q.wheel.speedStep] ++ two q.wheel.jogSize
  ++ [q.strip.style.code] ++ two q.strip.threshold ++ [byte q.strip.gain]
  ++ [byte q.pedal.deadBand, byte q.pedal.gain]
  ++ [q.drive.code, q.cls.code, q.pickup.code, flagByte q.reverse, flagByte q.lampOverride.isSome]
  ++ two q.pattern.on ++ two q.pattern.off
  ++ byte q.acquired :: q.baselines.toList.flatMap two

/-- Clear the change flags an acknowledge set names (R116). -/
def Port.acknowledge (q : Port) (set : Byte) : Port :=
  { q with
    connectChange := q.connectChange && !set.getLsbD 0
    enableChange := q.enableChange && !set.getLsbD 1
    faultChange := q.faultChange && !set.getLsbD 2 }

/-- Query Port (R116): the flags are reported as they are before they are cleared. The clearing of the flags named is a
step of its own, so that other events can be taken between the sampling and it; with none named nothing is left (log 42). -/
def queryPort (body : List Byte) (s : State) : Answer :=
  withFour (u8 body 0) s (fun p =>
    if 7 < u8 body 1 then refuse .range s
    else
      let set := body.getD 1 0
      done (portBytes s.ports[p]) (updatePort p (fun q => { q with ackDue := if set = 0 then none else some set }) s))

/-- The clearing that a Query Port has left (R116). -/
def Port.finishAck (q : Port) : Port :=
  match q.ackDue with
  | some set => { q.acknowledge set with ackDue := none }
  | none => q

/-- Clear the flags that a Query Port has named and not cleared yet. -/
def finishAcks (s : State) : State := { s with ports := s.ports.map Port.finishAck }

/-- ENABLE_PORT. -/
def execEnablePort (s : State) : Out := ran (runRequest 0x48 enablePort s)
/-- DISABLE_PORT. -/
def execDisablePort (s : State) : Out := ran (runRequest 0x49 disablePort s)
/-- RESET_PORT. -/
def execResetPort (s : State) : Out := ran (runRequest 0x4A resetPort s)
/-- SET_PORT. -/
def execSetPort (s : State) : Out := ran (runRequest 0x4B setPort s)
/-- SET_LAMP. -/
def execSetLamp (s : State) : Out := ran (runRequest 0x4C setLamp s)
/-- QUERY_PORT: the clearing that an earlier one has left, else the head request (R116; log 42). -/
def execQueryPort (s : State) : Out :=
  ran (if s.acknowledging then event true finishAcks s else runRequest 0x4D queryPort s)

/-! ### Resets (R118) -/

/-- A port under a PORTS or ALL reset (R118). An Idle or a fault SILENT that the last poll has left due is dropped with the
connection it belongs to: the model's choice (log 47). -/
def Port.scopeReset (q : Port) (all : Bool) (now : Nat) : Port :=
  { q.disconnect now with
    connectChange := false, enableChange := false, faultChange := false
    common := .default, wheel := .default, strip := .default, pedal := .default
    lampOverride := none, pickup := .pickedUp, flash := q.flash && !all, ackDue := none }.relamp

end Sys2Proof.Machine
end

