-- ==== Sys2Proof/Machine/Script.lean ====
section
/-! DEFINITION. The Script Table: stories, the load, the running order and the on-air history (chapter 2). -/

namespace Sys2Proof.Machine

/-! ### On-air history (R20, R23) -/

/-- A Designation report (R20). -/
def designation (k : Slot) (s : State) : State :=
  let y := s.script.stories[k]
  if y.state = .ready ∧ !y.aired then
    raise .storyAired (s.withScript { s.script.withStory k { y with aired := true } with lastAired := some k })
  else s

/-- An Air Frame report: one more air frame, saturating (R23). -/
def airFrame (k : Slot) (s : State) : State :=
  let y := s.script.stories[k]
  if y.state = .ready then s.withScript (s.script.withStory k { y with airFrames := min (y.airFrames + 1) 65535 })
  else s

/-- The oldest report of the Scroll Engine to the Script Table, when it is one the test names. -/
def takeScriptMsg (want : ScriptMsg → Option Slot) (f : Slot → State → State) (s : State) : State :=
  takeHead s.mail.toScript want (fun rest u => u.withMail { u.mail with toScript := rest }) f s

/-- DESIGNATION_REPORT. -/
def execDesignationReport (s : State) : Out :=
  ran (takeScriptMsg (fun m => match m with | .designation k => some k | .airFrame _ => none) designation s)

/-- AIR_FRAME_REPORT. -/
def execAirFrameReport (s : State) : Out :=
  ran (takeScriptMsg (fun m => match m with | .airFrame k => some k | .designation _ => none) airFrame s)

/-! ### The load (R24 to R27) -/

/-- The slug of an Open Story or Set Story body: the codes after the count at offset 4. -/
def slugOf (body : List Byte) : List Byte := body.drop 5

/-- A story as Open Story writes it (R24). -/
def Story.opening (limit : Nat) (access : Access) (slug : List Byte) : Story :=
  { Story.free with state := .loading, access := access, limit := limit, slug := slug }

/-- Open Story (R24). -/
def openStory (body : List Byte) (s : State) : Answer :=
  withSlot (u8 body 0) s (fun k =>
    let limit := u16 body 1
    match Access.ofCode (u8 body 3) with
    | none => refuse .range s
    | some access =>
      if limit < 1 ∨ 1023 < limit ∨ !slugOk (slugOf body) then refuse .range s
      else if s.script.stories[k].state ≠ .free ∨ s.script.load.isSome then refuse .state s
      else done [] (s.withScript { s.script.withStory k (.opening limit access (slugOf body)) with load := some k }))

/-- Append Line (R25). -/
def appendLine (body : List Byte) (s : State) : Answer :=
  match checkRecord body with
  | none => refuse .range s
  | some r =>
    match s.script.load with
    | none => refuse .state s
    | some k =>
      let y := s.script.stories[k]
      if y.lines.length = y.limit then refuse .limit s
      else match takeBlock r s with
        | none => refuse .storeFull s
        | some (n, u) => done [] (u.withScript (u.script.withStory k { y with lines := y.lines ++ [n] }))

/-- Close Story with commit (R26), and with a mode code that names neither. -/
def closeCommit (body : List Byte) (s : State) : Answer :=
  if 1 < u8 body 0 then refuse .range s
  else match s.script.load with
    | none => refuse .state s
    | some k =>
      let y := s.script.stories[k]
      done [] (changeScript [] k { s.script.withStory k { y with state := .ready } with load := none } s)

/-- Close Story with abandon (R27). -/
def closeAbandon (_body : List Byte) (s : State) : Answer :=
  match s.script.load with
  | none => refuse .state s
  | some k =>
    let run := s.script.stories[k].lines
    let after := { s.script.withStory k Story.free with
      load := none, order := s.script.order.filter (fun e => e.slot ≠ k) }
    done [] (changeScript [] k after (returnRun run s))

/-- OPEN_STORY. -/
def execOpenStory (s : State) : Out := ran (runRequest 0x10 openStory s)
/-- APPEND_LINE. -/
def execAppendLine (s : State) : Out := ran (runRequest 0x11 appendLine s)
/-- CLOSE_STORY_COMMIT: a Close Story whose body is not the one byte of abandon (log 25). -/
def execCloseStoryCommit (s : State) : Out :=
  ran (runRequestIf (fun r => r.kind = 0x12 ∧ r.body ≠ [1]) closeCommit s)
/-- CLOSE_STORY_ABANDON: a Close Story whose body is the one byte of abandon. -/
def execCloseStoryAbandon (s : State) : Out :=
  ran (runRequestIf (fun r => r.kind = 0x12 ∧ r.body = [1]) closeAbandon s)

/-! ### The running order (R32 to R35) -/

/-- Put an entry into a list before an index. -/
def insertEntry (es : List Entry) (i : Nat) (e : Entry) : List Entry := es.take i ++ e :: es.drop i

/-- Place Entry (R32). -/
def placeEntry (body : List Byte) (s : State) : Answer :=
  withSlot (u8 body 0) s (fun k =>
    let i := u8 body 1
    if s.script.order.length < i then refuse .range s
    else if s.script.stories[k].state = .free then refuse .noStory s
    else if (s.script.entryIndex k).isSome then refuse .inOrder s
    else done [] (changeScript [] k
      { s.script with order := insertEntry s.script.order i { slot := k, floated := false } } s))

/-- Move Entry (R33). -/
def moveEntry (body : List Byte) (s : State) : Answer :=
  let i := u8 body 0
  let j := u8 body 1
  match s.script.order[i]? with
  | none => refuse .range s
  | some e =>
    if s.script.order.length ≤ j then refuse .range s
    else if i = j then done [] s
    else done [] (changeScript [] e.slot
      { s.script with order := insertEntry (s.script.order.eraseIdx i) j e } s)

/-- Remove Entry (R34). -/
def removeEntry (body : List Byte) (s : State) : Answer :=
  let i := u8 body 0
  match s.script.order[i]? with
  | none => refuse .range s
  | some e => done [] (changeScript [] e.slot { s.script with order := s.script.order.eraseIdx i } s)

/-- Float Entry (R35). -/
def floatEntry (body : List Byte) (s : State) : Answer :=
  let i := u8 body 0
  match s.script.order[i]?, flagOf (u8 body 1) with
  | some e, some on =>
    if e.floated = on then done [] s
    else done [] (changeScript [] e.slot
      { s.script with order := s.script.order.set i { e with floated := on } } s)
  | _, _ => refuse .range s

/-- PLACE_ENTRY. -/
def execPlaceEntry (s : State) : Out := ran (runRequest 0x20 placeEntry s)
/-- MOVE_ENTRY. -/
def execMoveEntry (s : State) : Out := ran (runRequest 0x21 moveEntry s)
/-- REMOVE_ENTRY. -/
def execRemoveEntry (s : State) : Out := ran (runRequest 0x22 removeEntry s)
/-- FLOAT_ENTRY. -/
def execFloatEntry (s : State) : Out := ran (runRequest 0x23 floatEntry s)

/-! ### Freeing and rewriting (R36, R37) -/

/-- Free Story (R36). -/
def freeStory (body : List Byte) (s : State) : Answer :=
  withSlot (u8 body 0) s (fun k =>
    let y := s.script.stories[k]
    match y.state with
    | .free => refuse .noStory s
    | .loading => refuse .state s
    | .ready =>
      if (s.script.entryIndex k).isSome then refuse .inOrder s
      else
        let lead := if y.lines.isEmpty then [] else [ScriptReport.delete k 0 y.lines]
        done [] (changeScript lead k (s.script.withStory k Story.free) (returnRun y.lines s)))

/-- The slot of the live position as the Scroll Engine answers a Live Slot request (R65). -/
def liveSlotAnswer (s : State) : Option Slot :=
  (s.engine.live.bind (fun p => s.script.locate p.block)).map (·.1)

/-- The Live Slot check after a Set Story: the engine has taken the request's reports when it answers (R21; log 9). -/
def liveSlotCheck (k : Slot) (s : State) : State :=
  let s := takeReports s
  if liveSlotAnswer s = some k then designation k s else s

/-- Set Story (R37). -/
def setStory (body : List Byte) (s : State) : Answer :=
  withSlot (u8 body 0) s (fun k =>
    let limit := u16 body 2
    let y := s.script.stories[k]
    match Access.ofCode (u8 body 1) with
    | none => refuse .range s
    | some access =>
      if limit < 1 ∨ 1023 < limit ∨ limit < y.lines.length ∨ !slugOk (slugOf body) then refuse .range s
      else match y.state with
        | .free => refuse .noStory s
        | .loading => refuse .state s
        | .ready =>
          let y' := { y with access := access, limit := limit, slug := slugOf body, aired := false, changed := false,
                             airFrames := 0 }
          done [] (liveSlotCheck k (changeScript [] k (s.script.withStory k y') s)))

/-- FREE_STORY. -/
def execFreeStory (s : State) : Out := ran (runRequest 0x13 freeStory s)
/-- SET_STORY. -/
def execSetStory (s : State) : Out := ran (runRequest 0x14 setStory s)

/-! ### Queries (R14, R38) -/

/-- The entry part of a Query Story reply; without an entry its three bytes are free values (log 16). -/
def entryBytes (t : ScriptTable) (k : Slot) : List Byte :=
  match t.entryIndex k, t.order.find? (fun e => e.slot = k) with
  | some i, some e => [byte i, flagByte e.floated, (t.standing e).code]
  | _, _ => [Config.noEntryIndex, Config.noEntryFloated, Config.noEntryStanding]

/-- Query Story (R38; log 15). -/
def queryStory (body : List Byte) (s : State) : Answer :=
  withSlot (u8 body 0) s (fun k =>
    let y := s.script.stories[k]
    done ([y.state.code, y.access.code] ++ two y.limit ++ two y.lines.length ++ byte y.slug.length :: y.slug
      ++ [flagByte y.aired, flagByte y.changed] ++ two y.airFrames ++ entryBytes s.script k) s)

/-- Query Order (R38; log 15). -/
def queryOrder (_body : List Byte) (s : State) : Answer :=
  let t := s.script
  done (byte t.order.length :: t.order.flatMap (fun e => [byte e.slot.val, flagByte e.floated, (t.standing e).code])
    ++ [slotByte t.load, slotByte t.lastAired, slotByte t.lastChanged]) s

/-- The line count of the open load (R14). -/
def ScriptTable.loadCount (t : ScriptTable) : Nat :=
  match t.load with
  | some k => t.stories[k].lines.length
  | none => 0

/-- Query Store (R14). -/
def queryStore (_body : List Byte) (s : State) : Answer :=
  done (two s.store.freeCount ++ two s.store.threshold ++ two s.script.loadCount) s

/-- QUERY_STORY. -/
def execQueryStory (s : State) : Out := ran (runRequest 0x15 queryStory s)
/-- QUERY_ORDER. -/
def execQueryOrder (s : State) : Out := ran (runRequest 0x24 queryOrder s)
/-- QUERY_STORE. -/
def execQueryStore (s : State) : Out := ran (runRequest 0x16 queryStore s)

end Sys2Proof.Machine
end

