-- ==== Sys2Proof/Machine/Edit.lean ====
section
/-! DEFINITION. Editing on air (chapter 3): the checks, the protection step, the three edits, Read Line and the two
records. -/

namespace Sys2Proof.Machine

/-- The cause set of the protection step (R45); `insert` says that the edit is an Insert Line. -/
def protection (insert : Bool) (y : Story) (t : TextStore) : Causes :=
  { fixed := y.access = .fixed
    closed := y.access = .closed
    limit := insert && y.lines.length = y.limit
    storeFull := insert && t.pool.isEmpty }

/-- No cause at all. -/
def Causes.isEmpty (c : Causes) : Bool := !c.fixed && !c.closed && !c.limit && !c.storeFull

/-- The status of an aborted edit (R46). -/
def Causes.status (c : Causes) : Status :=
  if c.fixed ∨ c.closed then .denied else if c.limit then .limit else .storeFull

/-- Offer an aborted edit to the fault record: it fills an empty record and raises Edit Fault (R58). -/
def offerFault (r : FaultRecord) (s : State) : State :=
  match s.script.fault with
  | some _ => s
  | none => raise .editFault (s.withScript { s.script with fault := some r })

/-- Step 1 of R50: the changed-after-air flag (R22). -/
def noteChange (k : Slot) (s : State) : State :=
  let y := s.script.stories[k]
  if y.aired ∧ !y.changed then
    raise .changedAfterAir
      (s.withScript { s.script.withStory k { y with changed := true } with lastChanged := some k })
  else s

/-- Step 2 of R50: the watch record (R55). -/
def noteWatch (r : WatchRecord) (s : State) : State :=
  if s.script.stories[r.slot].access = .watched then
    raise .editWatch (s.withScript { s.script with watch := some r })
  else s

/-- Steps 1 and 2 of R50 for a completed edit. -/
def noteEdit (kind : EditKind) (k : Slot) (line : Nat) (change : Int) (s : State) : State :=
  noteWatch { kind := kind, slot := k, line := line, change := change, frame := s.clock.counter } (noteChange k s)

/-- The No Story, State and protection steps of an edit whose Range step has passed (R44 to R46): an edit without a
cause goes on as `complete`. -/
def editChecks (kind : EditKind) (k : Slot) (line : Nat) (s : State) (complete : State → Answer) : Answer :=
  let y := s.script.stories[k]
  match y.state with
  | .free => refuse .noStory s
  | .loading => refuse .state s
  | .ready =>
    let c := protection (kind = .insert) y s.store
    if c.isEmpty then complete s
    else refuse c.status (offerFault { causes := c, kind := kind, slot := k, line := line, frame := s.clock.counter } s)

/-- Replace the lines of a story. -/
def ScriptTable.withLines (t : ScriptTable) (k : Slot) (ls : List Nat) : ScriptTable :=
  t.withStory k { t.stories[k] with lines := ls }

/-- Put a block into a line list before an index. -/
def insertLineAt (ls : List Nat) (i n : Nat) : List Nat := ls.take i ++ n :: ls.drop i

/-- A completed Insert Line (R47, R50, R51). The reports carry the change of the line list; the history and the watch
record are noted before they go out. -/
def completeInsert (k : Slot) (i : Nat) (r : LineRecord) (s : State) : Answer :=
  match takeBlock r s with
  | none => refuse .storeFull s
  | some (n, u) =>
    let ls := insertLineAt u.script.stories[k].lines i n
    let v := noteEdit .insert k i 1 u
    done (two ls.length) (changeScript [.insert k i n] k (v.script.withLines k ls) v)

/-- A completed Replace Line (R48, R50). -/
def completeReplace (k : Slot) (i : Nat) (r : LineRecord) (n : Nat) (s : State) : Answer :=
  done [] (sendRewritten k n (noteEdit .replace k i 0 (rewriteBlock n r s)))

/-- A completed Delete Lines (R49, R50, R51). -/
def completeDelete (k : Slot) (first count : Nat) (s : State) : Answer :=
  let ls := s.script.stories[k].lines
  let run := (ls.drop first).take count
  let rest := ls.take first ++ ls.drop (first + count)
  let v := noteEdit .delete k first (-(count : Int)) (returnRun run s)
  done (two rest.length) (changeScript [.delete k first run] k (v.script.withLines k rest) v)

/-- A slot that holds a story (R43). -/
def Story.held (y : Story) : Bool := y.state ≠ .free

/-- Insert Line (R43 to R47). -/
def insertLine (body : List Byte) (s : State) : Answer :=
  withSlot (u8 body 0) s (fun k =>
    let i := u16 body 1
    let y := s.script.stories[k]
    match checkRecord (body.drop 3) with
    | none => refuse .range s
    | some r =>
      if y.held ∧ y.lines.length < i then refuse .range s
      else editChecks .insert k i s (completeInsert k i r))

/-- Replace Line (R43 to R46, R48). -/
def replaceLine (body : List Byte) (s : State) : Answer :=
  withSlot (u8 body 0) s (fun k =>
    let i := u16 body 1
    let y := s.script.stories[k]
    match checkRecord (body.drop 3) with
    | none => refuse .range s
    | some r =>
      if y.held ∧ y.lines.length ≤ i then refuse .range s
      else editChecks .replace k i s (completeReplace k i r (y.lines.getD i 0)))

/-- Delete Lines (R43 to R46, R49). -/
def deleteLines (body : List Byte) (s : State) : Answer :=
  withSlot (u8 body 0) s (fun k =>
    let first := u16 body 1
    let count := u8 body 3
    let y := s.script.stories[k]
    if count < 1 ∨ 32 < count ∨ (y.held ∧ (y.lines.length ≤ first ∨ y.lines.length < first + count)) then
      refuse .range s
    else editChecks .delete k first s (completeDelete k first count))

/-- A line record as Read Line and a TEXT fetch reply carry it; a free block has none. -/
def blockBytes (b : LineBlock) : List Byte :=
  b.gen :: (match b.record with | some r => recordBytes r | none => [])

/-- Read Line (R43, R44, R52). -/
def readLine (body : List Byte) (s : State) : Answer :=
  withSlot (u8 body 0) s (fun k =>
    let y := s.script.stories[k]
    if y.held then
      match y.lines[u16 body 1]? with
      | some n => done (blockBytes (s.store.read n)) s
      | none => refuse .range s
    else refuse .noStory s)

/-- Query Fault (R61). -/
def queryFault (_body : List Byte) (s : State) : Answer :=
  done (faultBytes s.script.fault ++ watchBytes s.script.watch) s

/-- Clear Fault (R59). -/
def clearFault (_body : List Byte) (s : State) : Answer := done [] (s.withScript { s.script with fault := none })

/-- INSERT_LINE. -/
def execInsertLine (s : State) : Out := ran (runRequest 0x28 insertLine s)
/-- REPLACE_LINE. -/
def execReplaceLine (s : State) : Out := ran (runRequest 0x29 replaceLine s)
/-- DELETE_LINES. -/
def execDeleteLines (s : State) : Out := ran (runRequest 0x2A deleteLines s)
/-- READ_LINE. -/
def execReadLine (s : State) : Out := ran (runRequest 0x2B readLine s)
/-- QUERY_FAULT. -/
def execQueryFault (s : State) : Out := ran (runRequest 0x2C queryFault s)
/-- CLEAR_FAULT. -/
def execClearFault (s : State) : Out := ran (runRequest 0x2D clearFault s)

end Sys2Proof.Machine
end

