-- ==== Sys2Proof/Machine/Clock.lean ====
section
/-! DEFINITION. The Frame Clock (chapter 8). -/

namespace Sys2Proof.Machine

/-- The interval P + trim. P is at least 8000 and the trim at least -128 (R156). -/
def FrameClock.freeInterval (c : FrameClock) : Nat := ((c.period : Int) + c.trim).toNat

/-- The clock at a frame start: the counter, the time, the interval in force (R155, R156). -/
def FrameClock.start (c : FrameClock) (now : Nat) : FrameClock :=
  { c with counter := c.counter + 1, lastStart := now, interval := c.freeInterval }

/-- A frame start: the clock, then its delivery to the Scroll Engine and the Cue Monitor (R155). -/
def frameStart (s : State) : State := sendFrameStart (s.withClock (s.clock.start s.now))

/-- A free-run frame start is due (R156). -/
def FrameClock.freeRunDue (c : FrameClock) (now : Nat) : Bool := c.lock ≠ .locked && c.lastStart + c.interval ≤ now

/-- A flywheel frame is due (R160). -/
def FrameClock.flywheelDue (c : FrameClock) (now : Nat) : Bool :=
  c.lock = .locked && c.lastStart + c.period + c.period / 4 ≤ now

/-- FREE_RUN_FRAME_START (R156). -/
def execFreeRunFrameStart (s : State) : Out :=
  ran (event false (fun u => if u.clock.freeRunDue u.now then frameStart u else u) s)

/-- The reference record forgotten (R157, R158, R160). -/
def FrameClock.forget (c : FrameClock) : FrameClock := { c with lastPulse := none, goodRun := 0, flywheel := 0 }

/-- FLYWHEEL_FRAME: the third one makes the state LOST (R160). -/
def execFlywheelFrame (s : State) : Out :=
  ran (event false (fun u =>
    if u.clock.flywheelDue u.now then
      let u := frameStart u
      let n := u.clock.flywheel + 1
      if n = 3 then raise .reference (u.withClock { u.clock.forget with lock := .lost, event := some .lost })
      else u.withClock { u.clock with flywheel := n }
    else u) s)

/-- A pulse in LOCKED: it starts a frame when it comes at least P/2 after the last frame start (R160). -/
def lockedPulse (s : State) : State :=
  if s.clock.lastStart + s.clock.period / 2 ≤ s.now then
    let u := frameStart s
    u.withClock { u.clock with flywheel := 0 }
  else s

/-- A pulse is good when it comes P - P/8 to P + P/8 after the last pulse taken (R159). -/
def FrameClock.good (c : FrameClock) (last now : Nat) : Bool :=
  c.period - c.period / 8 ≤ now - last && now - last ≤ c.period + c.period / 8

/-- A pulse in HUNTING or LOST (R159). -/
def huntingPulse (s : State) : State :=
  let c := s.clock
  match c.lastPulse with
  | none => s.withClock { c with lastPulse := some s.now }
  | some last =>
    let run := if c.good last s.now then c.goodRun + 1 else 0
    let c' := { c with lastPulse := some s.now, goodRun := run }
    if run = 2 then
      let locked := { c' with lock := .locked, flywheel := 0 }
      if c.lock = .lost then
        lockedPulse (raise .reference (s.withClock { locked with event := some .found }))
      else lockedPulse (s.withClock locked)
    else s.withClock c'

/-- A reference pulse (R158 to R160): in mode FREE it is not taken. -/
def takePulse (s : State) : State :=
  match s.clock.mode, s.clock.lock with
  | .free, _ => s
  | .lock, .locked => lockedPulse (s.withClock { s.clock with lastPulse := some s.now })
  | .lock, .hunting | .lock, .lost => huntingPulse s
  | .lock, .free => s

/-- REFERENCE_PULSE. -/
def execReferencePulse (s : State) : Out := ran (event false takePulse s)

/-! ### Requests (R157, R158, R162) -/

/-- The interval after the clock leaves LOCKED: P + trim in force, from the last frame start (R156). -/
def FrameClock.leaveLocked (c : FrameClock) (was : LockState) : FrameClock :=
  if was = .locked then { c with interval := c.freeInterval } else c

/-- The clock under a new period and trim (R157). -/
def FrameClock.setFrame (c : FrameClock) (period : Nat) (trim : Int) : FrameClock :=
  let c' := { c with period := period, trim := trim }
  if period = c.period ∨ c.mode = .free then c'
  else { c'.forget with lock := .hunting }.leaveLocked c.lock

/-- Set Frame (R157). -/
def setFrame (body : List Byte) (s : State) : Answer :=
  let period := u16 body 0
  let trim := s8 body 2
  if 8000 ≤ period ∧ period ≤ 42000 then done [] (s.withClock (s.clock.setFrame period trim)) else refuse .range s

/-- The clock under a new reference mode (R158). -/
def FrameClock.setMode (c : FrameClock) (m : RefMode) : FrameClock :=
  if m = c.mode then c
  else match m with
    | .lock => { c.forget with mode := .lock, lock := .hunting }
    | .free => { c.forget with mode := .free, lock := .free }.leaveLocked c.lock

/-- Set Reference (R158). -/
def setReference (body : List Byte) (s : State) : Answer :=
  match RefMode.ofCode (u8 body 0) with
  | some m => done [] (s.withClock (s.clock.setMode m))
  | none => refuse .range s

/-- Query Frame (R162; log 15). -/
def queryFrame (_body : List Byte) (s : State) : Answer :=
  let c := s.clock
  done (two c.period ++ [sbyte c.trim, c.mode.code, c.lock.code] ++ twoOf c.counter
    ++ [byte c.goodRun, byte c.flywheel, refEventCode c.event]) s

/-- SET_FRAME. -/
def execSetFrame (s : State) : Out := ran (runRequest 0x58 setFrame s)
/-- SET_REFERENCE. -/
def execSetReference (s : State) : Out := ran (runRequest 0x59 setReference s)
/-- QUERY_FRAME. -/
def execQueryFrame (s : State) : Out := ran (runRequest 0x5A queryFrame s)

end Sys2Proof.Machine
end

