-- ==== Sys2Proof/Machine/HeadLink.lean ====
section
/-! DEFINITION. The Head Links (chapter 9): building views, answering fetches, the link state. -/

namespace Sys2Proof.Machine

/-- Change one head. -/
def updateHead (h : HeadNo) (f : Head → Head) (s : State) : State := s.withHead h (f s.heads[h])

/-! ### Building a view (R168 to R172) -/

/-- The entry of a line with the generation its block has now (R169). -/
def lineEntry (t : TextStore) (b : Nat) : RowEntry := .line b (t.read b).gen

/-- `n` rows in one direction from the source: lines, then one GAP where a gap ended the walk, then BLANK (R169). -/
def rowsFrom (t : TextStore) (n : Nat) (bs : List Nat) (gap : Bool) : List RowEntry :=
  (bs.map (lineEntry t) ++ (if gap then [RowEntry.gap] else []) ++ List.replicate n RowEntry.blank).take n

/-- A row table around a source block: the rows above, the reading row, the rows below down to row `rows` (R169). -/
def tableAround (t : TextStore) (v : ViewSettings) (block : Nat) (r : Reach) : List RowEntry :=
  (rowsFrom t v.readingRow r.back r.backGap).reverse ++ lineEntry t block ::
    rowsFrom t (v.rows - v.readingRow) r.fore r.foreGap

/-- The rows of a story alone, around one of its lines: no gaps and no neighbours (R170). -/
def ScriptTable.storyReach (t : ScriptTable) (block : Nat) : Option Reach :=
  match t.locate block with
  | some (k, i) =>
    if t.stories[k].state = .ready then
      let ls := t.stories[k].lines
      some { back := (ls.take i).reverse, backGap := false, fore := ls.drop (i + 1), foreGap := false }
    else none
  | none => none

/-- The reach of the source block of a view (R169, R170). -/
def ScriptTable.sourceReach (t : ScriptTable) (source : HeadSource) (block : Nat) : Option Reach :=
  match source with
  | .live => t.reach block
  | .preview => t.storyReach block

/-- The slug of the story holding a block. -/
def ScriptTable.slugAt (t : ScriptTable) (block : Nat) : List Byte :=
  match t.locate block with
  | some (k, _) => t.stories[k].slug
  | none => []

/-- Row table and slug of a view: all BLANK with an empty slug for a VOID source, and for one whose block has left
(R168, R170). -/
def viewRows (s : State) (v : ViewSettings) (block : Option Nat) : List RowEntry × List Byte :=
  match block with
  | none => (List.replicate (v.rows + 1) .blank, [])
  | some b =>
    match s.script.sourceReach v.source b with
    | some r => (tableAround s.store v b r, s.script.slugAt b)
    | none => (List.replicate (v.rows + 1) .blank, [])

/-- The view a head builds from a publish (R168). -/
def buildView (x : Publish) (hd : Head) (s : State) : View :=
  let v := hd.settings
  let block := match v.source with
    | .live => x.live.map (·.block)
    | .preview => x.preview
  let rows := viewRows s v block
  { frame := x.frame, source := v.source, slug := rows.2
    offset := match v.source with
      | .live => (x.live.map (·.sub)).getD 0
      | .preview => 0
    rows := v.rows, readingRow := v.readingRow, stopped := x.motion = .halted, cue := hd.cueFlag, mirror := v.mirror
    holderClass := s.arbiter.holderClass, table := rows.1 }

/-- The history with a new view: the one of the same frame number leaves it, or the older of two (R172). -/
def enterHistory (v : View) (hist : List View) : List View :=
  if hist.any (fun x => x.frame = v.frame) then hist.filter (fun x => x.frame ≠ v.frame) ++ [v]
  else (if hist.length < 2 then hist else hist.drop 1) ++ [v]

/-- A waiting view record. -/
def HeadFrame.isView : HeadFrame → Bool
  | .view _ => true
  | .reply _ _ _ => false

/-- The transmit list with a new view record, which takes the place of one still waiting (R165). -/
def listView (v : View) (q : List HeadFrame) : List HeadFrame :=
  if q.any HeadFrame.isView then q.map (fun f => if f.isView then .view v else f) else q ++ [.view v]

/-- A head takes a publish (R168). -/
def takePublish (x : Publish) (h : HeadNo) (s : State) : State :=
  let hd := s.heads[h]
  if hd.up ∧ hd.settings.enable then
    let v := buildView x hd s
    s.withHead h { hd with history := enterHistory v hd.history, queue := listView v hd.queue }
  else s

/-- VIEW_BUILD. -/
def execViewBuild (h : HeadNo) (s : State) : Out :=
  ran (takeHead s.mail.publish[h] some
    (fun rest u => u.withMail { u.mail with publish := u.mail.publish.set h.val rest h.isLt })
    (fun x u => takePublish x h u) s)

/-! ### Fetches (R173) -/

/-- The outcome of a fetch (R173). -/
def fetchOutcome (t : TextStore) (hist : List View) (frame : Half) (row : Nat) : FetchOutcome :=
  match hist.find? (fun v => v.frame = frame) with
  | none => .expired
  | some v =>
    if v.rows + 1 ≤ row then .blank
    else match v.table[row]? with
      | none | some .blank => .blank
      | some .gap => .gap
      | some (.line b gen) =>
        let x := t.read b
        match x.record with
        | some r => if x.gen = gen then .text gen r else .changed
        | none => .changed

/-- Whether 16 fetch replies are waiting (R165). -/
def fetchesFull (q : List HeadFrame) : Bool := Config.fetchDepth ≤ (q.filter (fun f => !f.isView)).length

/-- A head takes a FETCH in UP: one reply, or none while 16 wait (R165, R173). -/
def takeFetch (frame : Half) (row : Nat) (t : TextStore) (hd : Head) : Head :=
  if fetchesFull hd.queue then hd
  else { hd with queue := hd.queue ++ [.reply frame row (fetchOutcome t hd.history frame row)] }

/-! ### Frames from the renderer (R164, R165, R190) -/

/-- The silence time has reached 300 ms in UP (R164). -/
def Head.silent (hd : Head) (now : Nat) : Bool := hd.up && hd.silentSince + Config.headSilence ≤ now

/-- A READY: a DOWN link comes UP with an empty history; the silence time starts from 0 (R164). So does that of an UP
link at the very moment DOWN is due, the model's choice (log 45). -/
def takeReady (h : HeadNo) (s : State) : State :=
  let hd := s.heads[h]
  if hd.up then s.withHead h { hd with silentSince := s.now }
  else raise .headChanged (s.withHead h { hd with up := true, silentSince := s.now, history := [] })

/-- The silence time of a link that takes a FETCH starts again from 0 (R164), but for one whose entry into DOWN is due
already: the fetch then comes together with it and does not put it off (R174). -/
def Head.heard (hd : Head) (now : Nat) : Head := if hd.silent now then hd else { hd with silentSince := now }

/-- A whole frame with a correct check: READY with an empty body, FETCH with a body of 3 in UP; any other is discarded
and does not restart the silence time (R165, R190). -/
def takeHeadFrame (h : HeadNo) (kind : Byte) (body : List Byte) (s : State) : State :=
  if kind = 0x01 ∧ body.length = 0 then takeReady h s
  else if kind = 0x02 ∧ body.length = 3 ∧ s.heads[h].up then
    updateHead h (fun hd =>
      takeFetch (BitVec.ofNat 16 (u16 body 0)) (u8 body 2) s.store (hd.heard s.now)) s
  else s

/-- One character on a head link. A fault discards the frame, with no error and no notice (R190). -/
def headChar (h : HeadNo) (s : State) (c : LineChar) : State :=
  let r := rxTake s.heads[h].rx.state c
  let s := updateHead h (fun hd => { hd with rx := { state := r.1, lastAt := s.now } }) s
  match r.2 with
  | .frame kind body => takeHeadFrame h kind body s
  | .quiet | .fault _ => s

/-- Give up a frame whose next character is more than 5 ms late (R190). -/
def headGap (h : HeadNo) (s : State) : State :=
  if s.heads[h].rx.timedOut s.now then updateHead h (fun hd => { hd with rx := { hd.rx with state := .hunting } }) s
  else s

/-- Characters on a head link, one after another. -/
def headChars (h : HeadNo) (chars : List LineChar) (s : State) : State := chars.foldl (headChar h) (headGap h s)

/-- HEAD_READY. -/
def execHeadReady (h : HeadNo) (chars : List LineChar) (s : State) : Out := ran (event false (headChars h chars) s)

/-- FETCH. -/
def execFetch (h : HeadNo) (chars : List LineChar) (s : State) : Out := ran (event false (headChars h chars) s)

/-- HEAD_FRAME_DISCARD: characters that bring no frame the link takes, or a gap of more than 5 ms. -/
def execHeadFrameDiscard (h : HeadNo) (chars : List LineChar) (s : State) : Out :=
  ran (event false (headChars h chars) s)

/-- HEAD_SILENCE_TIMEOUT (R164): a view record whose transmission has begun is sent whole (R165). That a fetch reply already
begun is too, and that a frame which the link is still receiving goes on being received, are the model's choices (log 54). -/
def execHeadSilenceTimeout (h : HeadNo) (s : State) : Out :=
  ran (event false (fun u =>
    if u.heads[h].silent u.now then
      raise .headChanged (updateHead h (fun hd => { hd with up := false, history := [], queue := [] }) u)
    else u) s)

/-- The transmitter of a head falls free and takes the next frame of its list (R165). -/
def Head.sendNext (hd : Head) : Head := { hd with sending := hd.queue.head?, queue := hd.queue.tail }

/-- HEAD_TRANSMIT. -/
def execHeadTransmit (h : HeadNo) (s : State) : Out := ran (event false (updateHead h Head.sendNext) s)

/-! ### The cue flag (R175) -/

/-- A Cue Flag or Cue Flag End that waits at a head. -/
def takeCueFlagIf (on : Bool) (h : HeadNo) (s : State) : State :=
  takeHead s.mail.cueFlag[h] (fun b => if b = on then some () else none)
    (fun rest u => u.withMail { u.mail with cueFlag := u.mail.cueFlag.set h.val rest h.isLt })
    (fun _ u => updateHead h (fun hd => { hd with cueFlag := on }) u) s

/-- CUE_FLAG. -/
def execCueFlag (h : HeadNo) (s : State) : Out := ran (takeCueFlagIf true h s)
/-- CUE_FLAG_END. -/
def execCueFlagEnd (h : HeadNo) (s : State) : Out := ran (takeCueFlagIf false h s)

/-! ### Requests (R167, R176) -/

/-- Set Head (R167). -/
def setHead (body : List Byte) (s : State) : Answer :=
  withFour (u8 body 0) s (fun h =>
    let rows := u8 body 4
    let reading := u8 body 5
    match flagOf (u8 body 1), HeadSource.ofCode (u8 body 2), flagOf (u8 body 3) with
    | some enable, some source, some mirror =>
      if 4 ≤ rows ∧ rows ≤ 24 ∧ reading < rows then
        done [] (updateHead h (fun hd => { hd with settings :=
          { enable := enable, source := source, mirror := mirror, rows := rows, readingRow := reading } }) s)
      else refuse .range s
    | _, _, _ => refuse .range s)

/-- Query Head (R176; log 15). -/
def queryHead (body : List Byte) (s : State) : Answer :=
  withFour (u8 body 0) s (fun h =>
    let hd := s.heads[h]
    let v := hd.settings
    done ([flagByte hd.up, flagByte v.enable, v.source.code, flagByte v.mirror, byte v.rows, byte v.readingRow,
      flagByte hd.cueFlag] ++ hd.history.flatMap (fun x => twoOf x.frame)) s)

/-- SET_HEAD. -/
def execSetHead (s : State) : Out := ran (runRequest 0x60 setHead s)
/-- QUERY_HEAD. -/
def execQueryHead (s : State) : Out := ran (runRequest 0x61 queryHead s)

/-! ### The bytes of head frames (R190) and resets (R177) -/

/-- The bytes of a frame to a renderer (11.8). -/
def HeadFrame.bytes : HeadFrame → List Byte
  | .view v => linkFrame 0x81 (twoOf v.frame ++ v.source.code :: byte v.slug.length :: v.slug
      ++ [byte v.offset, byte v.rows, byte v.readingRow, byte (v.stopped.toNat + 2 * v.cue.toNat + 4 * v.mirror.toNat),
          holderClassCode v.holderClass])
  | .reply frame row outcome => linkFrame 0x82 (twoOf frame ++ byte row ::
      (match outcome with
       | .text gen r => 0 :: gen :: recordBytes r
       | .changed => [1]
       | .expired => [2]
       | .gap => [3]
       | .blank => [4]))

/-- A head under a HEADS or ALL reset (R177). That a frame which the link is still receiving from its renderer goes on being
received, and that a fetch reply already begun is sent whole as a record is, are the model's choices (log 54). -/
def Head.scopeReset (hd : Head) (h : HeadNo) : Head := { hd with settings := .default h, history := [], queue := [] }

end Sys2Proof.Machine
end

