-- ==== Sys2Proof/Machine/Link.lean ====
section
/-! DEFINITION. The Link Controller (chapter 10): receiving, the request queue, transmission, notices, Identify, Set
Notices, Reset and the power-on reset. -/

namespace Sys2Proof.Machine

/-! ### Receiving (R179 to R181) -/

/-- Record a link error with the frame counter and raise Link Fault (R180). Each fault of the characters that arrive is a
step of its own, so a transmitter that waits sends its notice at once, and the next fault lists the kind anew (R183). -/
def linkFault (c : LinkErrorCause) (s : State) : State :=
  sendIfIdle (raise .linkFault (s.withLink { s.link with lastError := some (c, s.clock.counter) }))

/-- The Busy replies held in all (R181). -/
def LinkController.busyHeld (l : LinkController) : Nat := (l.requests.map (fun r => r.busy.length)).sum

/-- A Busy reply to a frame (R181). -/
def busyReply (kind : Byte) : Reply := { kind := replyKind kind, body := [Status.busy.code], isReset := false }

/-- Attach a Busy reply to the request at the tail of the queue (R181). -/
def attachBusy (x : Reply) (q : List Request) : List Request :=
  match q with
  | [] => []
  | [r] => [{ r with busy := r.busy ++ [x] }]
  | r :: rest => r :: attachBusy x rest

/-- A checked frame is offered to the request queue: it joins, or is answered Busy, or is an OVERRUN (R181). -/
def offerFrame (kind : Byte) (body : List Byte) (s : State) : State :=
  let l := s.link
  if l.requests.length < Config.requestDepth then
    s.withLink { l with requests := l.requests ++ [{ kind := kind, body := body, busy := [] }] }
  else if l.busyHeld < Config.busyDepth then
    s.withLink { l with requests := attachBusy (busyReply kind) l.requests }
  else linkFault .overrun s

/-- One character on RXD (R179, R180). -/
def hostChar (s : State) (c : LineChar) : State :=
  let r := rxTake s.link.rx.state c
  let s := s.withLink { s.link with rx := { state := r.1, lastAt := s.now } }
  match r.2 with
  | .frame kind body => offerFrame kind body s
  | .fault x => linkFault x s
  | .quiet => s

/-- The TIMEOUT fault of a frame under way (R180). -/
def hostGap (s : State) : State :=
  if s.link.rx.timedOut s.now then
    linkFault .timeout (s.withLink { s.link with rx := { s.link.rx with state := .hunting } })
  else s

/-- Characters on RXD, one after another. -/
def hostChars (chars : List LineChar) (s : State) : State := chars.foldl hostChar (hostGap s)

/-- CHECKED_FRAME. -/
def execCheckedFrame (chars : List LineChar) (s : State) : Out := ran (event false (hostChars chars) s)

/-- RECEIVE_FAULT. -/
def execReceiveFault (chars : List LineChar) (s : State) : Out := ran (event false (hostChars chars) s)

/-- FRAME_TIMEOUT. -/
def execFrameTimeout (s : State) : Out := ran (event false hostGap s)

/-- UNKNOWN_REQUEST: the head request's kind is not one of the part's; no block sees it (R182). -/
def execUnknownRequest (s : State) : Out :=
  ran (match s.link.requests with
    | [] => s
    | r :: _ =>
      if !knownRequest r.kind && s.canTake then
        event true (fun u => placeReply ((refuse .unknown u).reply r.kind) r.busy u) s
      else s)

/-- The bytes of the frame that a reply or notice is sent in (11.2). -/
def Reply.bytes (r : Reply) : List Byte := linkFrame r.kind r.body

/-! ### Transmission (R183) -/

/-- The frame being sent is the Done of an accepted Reset: its end is RESET_TAKES_EFFECT (R186; log 6). -/
def LinkController.sendsReset (l : LinkController) : Bool :=
  match l.sending with
  | some r => r.isReset
  | none => false

/-- TRANSMIT_NEXT. -/
def execTransmitNext (s : State) : Out :=
  ran (if s.link.sendsReset then s else event false transmitNext s)

/-! ### Identify, Set Notices, Reset (R184 to R186) -/

/-- Identify (R185, 11.4). -/
def identify (_body : List Byte) (s : State) : Answer :=
  let l := s.link
  done (two 0x3620 ++ [2] ++ two 8192 ++ [64, 4, 4, 6, byte l.rate] ++ twoOf l.mask
    ++ linkErrorCode l.lastError :: twoOf (linkErrorFrame l.lastError)) s

/-- The mask and the list under a new mask: kinds turned off leave the list (R184). -/
def LinkController.setMask (l : LinkController) (mask : Half) : LinkController :=
  { l with mask := mask, notices := l.notices.filter (fun n => n.enabledBy mask) }

/-- Set Notices (R184): the mask, then the threshold with the tests of R12 and R11. -/
def setNotices (body : List Byte) (s : State) : Answer :=
  let mask := u16 body 0
  let threshold := u16 body 2
  if Config.blocks < threshold ∨ 0x1FFF < mask then refuse .range s
  else
    let s := s.withLink (s.link.setMask (BitVec.ofNat 16 mask))
    done [] (storeLowTest (rearmTest (s.withStore { s.store with threshold := threshold })))

/-- Reset (R186): the accepted scope waits for the Done to go out. -/
def resetRequest (body : List Byte) (s : State) : Answer :=
  match Scope.ofByte (body.getD 0 0) with
  | some x => done [] (s.withLink { s.link with resetScope := some x })
  | none => refuse .range s

/-- IDENTIFY. -/
def execIdentify (s : State) : Out := ran (runRequest 0x70 identify s)
/-- SET_NOTICES. -/
def execSetNotices (s : State) : Out := ran (runRequest 0x71 setNotices s)
/-- RESET. -/
def execReset (s : State) : Out := ran (runRequest 0x72 resetRequest s)

end Sys2Proof.Machine
end

