-- ==== Sys2Proof/Machine/ResetEffect.lean ====
section
/-! DEFINITION. What each block takes under a reset scope, made together in one step (R186), and the power-on reset
(R187). -/

namespace Sys2Proof.Machine

/-- SCRIPT is in the scope. -/
def Scope.hitsScript (x : Scope) : Bool := x.script || x.all
/-- MOTION is in the scope. -/
def Scope.hitsMotion (x : Scope) : Bool := x.motion || x.all
/-- PORTS is in the scope. -/
def Scope.hitsPorts (x : Scope) : Bool := x.ports || x.all
/-- HEADS is in the scope. -/
def Scope.hitsHeads (x : Scope) : Bool := x.heads || x.all

/-- The Frame Clock: ALL alone touches it (R163). -/
def resetClock (x : Scope) (s : State) : State := if x.all then s.withClock (.reset s.now) else s

/-- The Text Store (R16). -/
def resetStore (x : Scope) (s : State) : State :=
  if x.hitsScript then s.withStore (s.store.scriptReset x.all) else s

/-- The Script Table (R41, R63). -/
def resetScript (x : Scope) (s : State) : State := if x.hitsScript then s.withScript .reset else s

/-- The Scroll Engine under a scope, with the halt frame as the counter stands after the clock's part (R94, R95). -/
def Engine.scopeReset (e : Engine) (x : Scope) (frame : Half) : Engine :=
  { e with
    live := if x.hitsScript then none else e.live
    liveSlot := if x.hitsScript then none else e.liveSlot
    preview := if x.hitsScript then none else e.preview
    motion := .halted, velocity := 0, target := 0, goal := none, haltCause := .reset, haltFrame := frame
    settings := if x.hitsMotion then .default else e.settings }

/-- The Scroll Engine (R94, R95): Scroll Halted is raised when the state was not HALTED. -/
def resetEngine (x : Scope) (s : State) : State :=
  if x.hitsScript || x.hitsMotion then
    let t := s.withEngine (s.engine.scopeReset x s.clock.counter)
    if s.engine.motion = .halted then t else raise .scrollHalted t
  else s

/-- The Drive Arbiter (R136, R137). -/
def resetArbiter (x : Scope) (s : State) : State :=
  if x.hitsMotion || x.hitsPorts then arbiterEvent (·.scopeReset x) s else s

/-- The Control Ports (R118); what they have sent the arbiter and it has not taken goes with them (log 13), and so does
what the last poll has left a port to do (log 47). -/
def resetPorts (x : Scope) (s : State) : State :=
  if x.hitsPorts then
    let s := s.withMail { s.mail with toArbiter := Vector.replicate 4 [] }
    { s with ports := s.ports.map (fun q => q.scopeReset x.all s.now) }
  else s

/-- The Cue Monitor under ALL (R153). -/
def resetCuesAll (s : State) : State :=
  let c := s.cues
  let s := s.withCues .reset
  let s := if 0 < c.flashCount then sendFlash false s else s
  if 0 < c.flagCount then sendCueFlag false s else s

/-- The Cue Monitor under MOTION (R154): timers reset, the queue rebuilt with every entry ARMED. -/
def resetCuesMotion (s : State) : State :=
  let s := s.withCues { s.cues with timers := Vector.replicate 6 Timer.reset, expiring := [] }
  setQueue (rebuilt s.script s.store s.engine.live [] []) s

/-- The Cue Monitor (R153, R154). -/
def resetCues (x : Scope) (s : State) : State :=
  if x.all then resetCuesAll s
  else
    let s := if x.motion then resetCuesMotion s else s
    if x.script then setQueue [] s else s

/-- The Head Links (R177). -/
def resetHeads (x : Scope) (s : State) : State :=
  if x.hitsHeads then
    { s with heads := #v[s.heads[0].scopeReset 0, s.heads[1].scopeReset 1, s.heads[2].scopeReset 2,
                         s.heads[3].scopeReset 3] }
  else s

/-- The Link Controller, last: under ALL the queues, the notice list, the mask and the last error; the receiver and the
rate are kept (R178, R186). The Done has gone out, so the transmitter falls free and takes its next frame (R183; log 6). -/
def resetLink (x : Scope) (s : State) : State :=
  if x.all then s.withLink { LinkController.reset s.link.rate with rx := s.link.rx }
  else transmitNext (s.withLink { s.link with resetScope := none })

/-- The reset of a scope takes effect (R186). The Frame Clock's part comes before the Scroll Engine's, which reads
the counter it leaves (R94). What the last frame start has left the Cue Monitor to do is done before, under every scope,
as before any other event of that block: the model's choice (log 44). Of the notices that it raises Scroll Halted is
listed before Drive Changed, R186 giving no order of the parts: the model's choice (log 48). -/
def takeReset (x : Scope) (s : State) : State :=
  resetLink x (resetHeads x (resetCues x (resetPorts x (resetArbiter x (resetEngine x (resetScript x (resetStore x
    (resetClock x (finishCueWork s)))))))))

/-- RESET_TAKES_EFFECT: the transmission of the Done of an accepted Reset ends (R186). -/
def execResetTakesEffect (s : State) : Out :=
  ran (match s.link.resetScope with
    | some x => if s.link.sendsReset then event true (takeReset x) s else s
    | none => s)

/-- The rate code of the RATE pins (R178). -/
def rateOf (rate1 rate0 : Bool) : Nat := 2 * rate1.toNat + rate0.toNat

/-- POWER_ON_RESET: every block takes its power-on values and the RATE pins are sampled (R187). The timebase starts again
from 0, the model's choice (log 3). The queue of commands is not the part's. -/
def execPowerOnReset (rate1 rate0 : Bool) (s : State) : Out :=
  ran { State.powerOn (rateOf rate1 rate0) with pending := s.pending }

end Sys2Proof.Machine
end

