-- ==== Sys2Proof/Machine/Schedule.lean ====
section
/-! DEFINITION. What the part does with no command queued: its own next event, in a fixed order, or a microsecond of
the timebase (log 2). -/

namespace Sys2Proof.Machine

/-- The command that executes a checked frame (11.4). -/
def requestCommand (r : Request) : Instr :=
  match r.kind.toNat with
  | 0x10 => .openStory | 0x11 => .appendLine
  | 0x12 => if r.body = [1] then .closeStoryAbandon else .closeStoryCommit
  | 0x13 => .freeStory | 0x14 => .setStory | 0x15 => .queryStory | 0x16 => .queryStore
  | 0x20 => .placeEntry | 0x21 => .moveEntry | 0x22 => .removeEntry | 0x23 => .floatEntry | 0x24 => .queryOrder
  | 0x28 => .insertLine | 0x29 => .replaceLine | 0x2A => .deleteLines | 0x2B => .readLine | 0x2C => .queryFault
  | 0x2D => .clearFault
  | 0x30 => .run | 0x31 => .stop | 0x32 => .halt | 0x33 => .step | 0x34 => .goTo | 0x35 => .setSpeed
  | 0x36 => .setMotion | 0x37 => .setPreview | 0x38 => .queryMotion
  | 0x40 => .setDriveMode | 0x41 => .setPortClass | 0x42 => .pinDrive | 0x43 => .claimDrive | 0x44 => .releaseDrive
  | 0x45 => .queryDrive
  | 0x48 => .enablePort | 0x49 => .disablePort | 0x4A => .resetPort | 0x4B => .setPort | 0x4C => .setLamp
  | 0x4D => .queryPort
  | 0x50 => .queryCues | 0x51 => .skipCue | 0x52 => .setTimer | 0x53 => .startTimer | 0x54 => .stopTimer
  | 0x55 => .queryTimers
  | 0x58 => .setFrame | 0x59 => .setReference | 0x5A => .queryFrame
  | 0x60 => .setHead | 0x61 => .queryHead
  | 0x70 => .identify | 0x71 => .setNotices | 0x72 => .reset
  | _ => .unknownRequest

/-- The command that takes a script-change report at the engine. -/
def reportCommand : ScriptReport → Instr
  | .insert _ _ _ => .insertReport
  | .delete _ _ _ => .deleteReport
  | .ineligible _ _ => .storyIneligibleReport
  | .eligible _ => .storyEligibleReport
  | .orderChanged => .orderChangedReport

/-- The command that takes a message at the Cue Monitor. -/
def cueCommand : CueMsg → Instr
  | .report _ => .scriptChangeReport
  | .rewritten _ _ => .lineRewritten

/-- The command that takes the engine's report at the Script Table. -/
def scriptCommand : ScriptMsg → Instr
  | .designation _ => .designationReport
  | .airFrame _ => .airFrameReport

/-- The command that takes a port's message at the arbiter. -/
def portCommand (p : PortNo) : PortMsg → Instr
  | .claim => .claim p
  | .idle => .idle p
  | .ready => .portReady p
  | .gone => .portGone p
  | .setTarget _ | .key | .jog _ => .passHolderInput p

/-- The command that takes the holder's input at the engine. -/
def inputCommand : HolderInput → Instr
  | .setTarget _ => .setTarget
  | .key => .startStopKey
  | .jog _ => .jog

/-- The command for the oldest message of a channel. -/
def forHead {α : Type} (channel : List (Msg α)) (f : α → Instr) : Option Instr := channel.head?.map (fun m => f m.body)

/-- A command when a condition holds. -/
def readyIf (b : Bool) (c : Instr) : Option Instr := if b then some c else none

/-- The first of four, over the ports or the heads. -/
def anyOfFour (f : Fin 4 → Option Instr) : Option Instr := (List.finRange 4).findSome? f

/-- Messages waiting: reports first (R40). -/
def waitingMessage (s : State) : Option Instr :=
  let m := s.mail
  (forHead m.engineReports reportCommand)
  <|> forHead m.cueReports cueCommand
  <|> forHead m.cueJumps (fun _ => .positionJumped)
  <|> forHead m.toScript scriptCommand
  <|> anyOfFour (fun p => forHead m.toArbiter[p] (portCommand p))
  <|> anyOfFour (fun p => forHead m.standing[p] (fun _ => .standingReport p))
  <|> anyOfFour (fun p => forHead m.flash[p] (fun on => if on then .lampFlash p else .lampFlashEnd p))
  <|> anyOfFour (fun h => forHead m.cueFlag[h] (fun on => if on then .cueFlag h else .cueFlagEnd h))
  <|> forHead m.engineStops (fun _ => .stopExpiryAction)
  <|> forHead m.engineInput inputCommand

/-- Work left of a Query Port, a poll or a frame start (R116, R105, R100, R145, R151). -/
def unfinishedWork (s : State) : Option Instr :=
  readyIf s.acknowledging .queryPort
  <|> readyIf s.cues.flashEndDue .flashCountEnd
  <|> readyIf s.cues.flagEndDue .cueFlagCountEnd
  <|> s.cues.expiring.head?.map .timerExpiry
  <|> anyOfFour (fun p => readyIf s.ports[p].releaseDue (.releaseTimeReached p))
  <|> anyOfFour (fun p => readyIf s.ports[p].silenceDue (.silenceFault p))

/-- A frame start or a publish waiting (R71, R150, R168). -/
def waitingFrame (s : State) : Option Instr :=
  forHead s.mail.engineFrames (fun _ => .frameAdvance)
  <|> forHead s.mail.cueFrames (fun _ => .cueFrameStart)
  <|> anyOfFour (fun h => forHead s.mail.publish[h] (fun _ => .viewBuild h))

/-- The host link: a reset due, a frame to send or one whose transmission ends, the head request (R182, R183, R186). -/
def linkEvent (s : State) : Option Instr :=
  readyIf (s.link.resetScope.isSome && s.link.sendsReset) .resetTakesEffect
  <|> readyIf (!s.link.sendsReset && (s.link.sending.isSome || !s.link.replies.isEmpty || !s.link.notices.isEmpty))
    .transmitNext
  <|> (if s.canTake then s.link.requests.head?.map requestCommand else none)
  <|> anyOfFour (fun h => readyIf (s.heads[h].sending.isSome || !s.heads[h].queue.isEmpty) (.headTransmit h))

/-- The hold-off of a port has run out. -/
def Port.holdOffDue (q : Port) (now : Nat) : Bool :=
  match q.holdOff with
  | some t => t ≤ now
  | none => false

/-- What the timebase has made due. -/
def timedEvent (s : State) : Option Instr :=
  anyOfFour (fun p => readyIf (s.ports[p].pollDue s.now) (.poll p))
  <|> anyOfFour (fun p => readyIf (s.ports[p].holdOffDue s.now) (.holdOffEnd p))
  <|> readyIf (s.clock.freeRunDue s.now) .freeRunFrameStart
  <|> readyIf (s.clock.flywheelDue s.now) .flywheelFrame
  <|> readyIf (s.link.rx.timedOut s.now) .frameTimeout
  <|> anyOfFour (fun h => readyIf (s.heads[h].silent s.now) (.headSilenceTimeout h))

/-- The part's own next event; what only the outside can bring (characters, pins, a reference pulse) is none of
these. -/
def nextEvent (s : State) : Option Instr :=
  waitingMessage s <|> unfinishedWork s <|> waitingFrame s <|> linkEvent s <|> timedEvent s

/-- A microsecond of the timebase. -/
def State.tick (s : State) : State := { s with now := s.now + 1 }

end Sys2Proof.Machine
end

