-- ==== Sys2Proof/Machine/Dispatch.lean ====
section
/-! DEFINITION. exec: one command, one meaning. -/

namespace Sys2Proof.Machine

/-- The effect of a command on everything but the queue. -/
def exec (i : Instr) (s : State) : Host.Outcome State Fault Refusal :=
  match i with
  | .powerOnReset rate1 rate0 => Sys2Proof.Machine.execPowerOnReset rate1 rate0 s
  | .checkedFrame chars => Sys2Proof.Machine.execCheckedFrame chars s
  | .receiveFault chars => Sys2Proof.Machine.execReceiveFault chars s
  | .frameTimeout => Sys2Proof.Machine.execFrameTimeout s
  | .unknownRequest => Sys2Proof.Machine.execUnknownRequest s
  | .transmitNext => Sys2Proof.Machine.execTransmitNext s
  | .resetTakesEffect => Sys2Proof.Machine.execResetTakesEffect s
  | .openStory => Sys2Proof.Machine.execOpenStory s
  | .appendLine => Sys2Proof.Machine.execAppendLine s
  | .closeStoryCommit => Sys2Proof.Machine.execCloseStoryCommit s
  | .closeStoryAbandon => Sys2Proof.Machine.execCloseStoryAbandon s
  | .freeStory => Sys2Proof.Machine.execFreeStory s
  | .setStory => Sys2Proof.Machine.execSetStory s
  | .queryStory => Sys2Proof.Machine.execQueryStory s
  | .queryStore => Sys2Proof.Machine.execQueryStore s
  | .placeEntry => Sys2Proof.Machine.execPlaceEntry s
  | .moveEntry => Sys2Proof.Machine.execMoveEntry s
  | .removeEntry => Sys2Proof.Machine.execRemoveEntry s
  | .floatEntry => Sys2Proof.Machine.execFloatEntry s
  | .queryOrder => Sys2Proof.Machine.execQueryOrder s
  | .insertLine => Sys2Proof.Machine.execInsertLine s
  | .replaceLine => Sys2Proof.Machine.execReplaceLine s
  | .deleteLines => Sys2Proof.Machine.execDeleteLines s
  | .readLine => Sys2Proof.Machine.execReadLine s
  | .queryFault => Sys2Proof.Machine.execQueryFault s
  | .clearFault => Sys2Proof.Machine.execClearFault s
  | .designationReport => Sys2Proof.Machine.execDesignationReport s
  | .airFrameReport => Sys2Proof.Machine.execAirFrameReport s
  | .run => Sys2Proof.Machine.execRun s
  | .stop => Sys2Proof.Machine.execStop s
  | .halt => Sys2Proof.Machine.execHalt s
  | .step => Sys2Proof.Machine.execStep s
  | .goTo => Sys2Proof.Machine.execGoTo s
  | .setSpeed => Sys2Proof.Machine.execSetSpeed s
  | .setMotion => Sys2Proof.Machine.execSetMotion s
  | .setPreview => Sys2Proof.Machine.execSetPreview s
  | .queryMotion => Sys2Proof.Machine.execQueryMotion s
  | .frameAdvance => Sys2Proof.Machine.execFrameAdvance s
  | .insertReport => Sys2Proof.Machine.execInsertReport s
  | .deleteReport => Sys2Proof.Machine.execDeleteReport s
  | .storyIneligibleReport => Sys2Proof.Machine.execStoryIneligibleReport s
  | .storyEligibleReport => Sys2Proof.Machine.execStoryEligibleReport s
  | .orderChangedReport => Sys2Proof.Machine.execOrderChangedReport s
  | .setTarget => Sys2Proof.Machine.execSetTarget s
  | .startStopKey => Sys2Proof.Machine.execStartStopKey s
  | .jog => Sys2Proof.Machine.execJog s
  | .stopExpiryAction => Sys2Proof.Machine.execStopExpiryAction s
  | .setDriveMode => Sys2Proof.Machine.execSetDriveMode s
  | .setPortClass => Sys2Proof.Machine.execSetPortClass s
  | .pinDrive => Sys2Proof.Machine.execPinDrive s
  | .claimDrive => Sys2Proof.Machine.execClaimDrive s
  | .releaseDrive => Sys2Proof.Machine.execReleaseDrive s
  | .queryDrive => Sys2Proof.Machine.execQueryDrive s
  | .claim p => Sys2Proof.Machine.execClaim p s
  | .idle p => Sys2Proof.Machine.execIdle p s
  | .portReady p => Sys2Proof.Machine.execPortReady p s
  | .portGone p => Sys2Proof.Machine.execPortGone p s
  | .passHolderInput p => Sys2Proof.Machine.execPassHolderInput p s
  | .standingReport p => Sys2Proof.Machine.execStandingReport p s
  | .enablePort => Sys2Proof.Machine.execEnablePort s
  | .disablePort => Sys2Proof.Machine.execDisablePort s
  | .resetPort => Sys2Proof.Machine.execResetPort s
  | .setPort => Sys2Proof.Machine.execSetPort s
  | .setLamp => Sys2Proof.Machine.execSetLamp s
  | .queryPort => Sys2Proof.Machine.execQueryPort s
  | .presenceFound p => Sys2Proof.Machine.execPresenceFound p s
  | .presenceLost p => Sys2Proof.Machine.execPresenceLost p s
  | .holdOffEnd p => Sys2Proof.Machine.execHoldOffEnd p s
  | .overcurrent p => Sys2Proof.Machine.execOvercurrent p s
  | .poll p => Sys2Proof.Machine.execPoll p s
  | .silenceFault p => Sys2Proof.Machine.execSilenceFault p s
  | .hello p chars => Sys2Proof.Machine.execHello p chars s
  | .dataReport p chars => Sys2Proof.Machine.execDataReport p chars s
  | .releaseTimeReached p => Sys2Proof.Machine.execReleaseTimeReached p s
  | .lampFlash p => Sys2Proof.Machine.execLampFlash p s
  | .lampFlashEnd p => Sys2Proof.Machine.execLampFlashEnd p s
  | .cueFrameStart => Sys2Proof.Machine.execCueFrameStart s
  | .flashCountEnd => Sys2Proof.Machine.execFlashCountEnd s
  | .cueFlagCountEnd => Sys2Proof.Machine.execCueFlagCountEnd s
  | .timerExpiry n => Sys2Proof.Machine.execTimerExpiry n s
  | .positionJumped => Sys2Proof.Machine.execPositionJumped s
  | .lineRewritten => Sys2Proof.Machine.execLineRewritten s
  | .scriptChangeReport => Sys2Proof.Machine.execScriptChangeReport s
  | .queryCues => Sys2Proof.Machine.execQueryCues s
  | .skipCue => Sys2Proof.Machine.execSkipCue s
  | .setTimer => Sys2Proof.Machine.execSetTimer s
  | .startTimer => Sys2Proof.Machine.execStartTimer s
  | .stopTimer => Sys2Proof.Machine.execStopTimer s
  | .queryTimers => Sys2Proof.Machine.execQueryTimers s
  | .freeRunFrameStart => Sys2Proof.Machine.execFreeRunFrameStart s
  | .referencePulse => Sys2Proof.Machine.execReferencePulse s
  | .flywheelFrame => Sys2Proof.Machine.execFlywheelFrame s
  | .setFrame => Sys2Proof.Machine.execSetFrame s
  | .setReference => Sys2Proof.Machine.execSetReference s
  | .queryFrame => Sys2Proof.Machine.execQueryFrame s
  | .viewBuild h => Sys2Proof.Machine.execViewBuild h s
  | .headReady h chars => Sys2Proof.Machine.execHeadReady h chars s
  | .fetch h chars => Sys2Proof.Machine.execFetch h chars s
  | .headFrameDiscard h chars => Sys2Proof.Machine.execHeadFrameDiscard h chars s
  | .headSilenceTimeout h => Sys2Proof.Machine.execHeadSilenceTimeout h s
  | .headTransmit h => Sys2Proof.Machine.execHeadTransmit h s
  | .cueFlag h => Sys2Proof.Machine.execCueFlag h s
  | .cueFlagEnd h => Sys2Proof.Machine.execCueFlagEnd h s
  | .setHead => Sys2Proof.Machine.execSetHead s
  | .queryHead => Sys2Proof.Machine.execQueryHead s
  | .identify => Sys2Proof.Machine.execIdentify s
  | .setNotices => Sys2Proof.Machine.execSetNotices s
  | .reset => Sys2Proof.Machine.execReset s

end Sys2Proof.Machine
end

