-- ==== Sys2Proof/Safety.lean ====
section
/-! DEFINITION. What the statements speak in: a request being served and its answer, and for each block the facts about
its state that the spec says hold at every moment. -/

namespace Sys2Proof.Machine

/-! ### A request served (R182) -/

/-- The head request is of the kind with the body, of the length its kind calls for, and can be taken (R182). -/
structure Serving (s : State) (kind : Byte) (body : List Byte) : Prop where
  head : ∃ busy rest, s.link.requests = { kind := kind, body := body, busy := busy } :: rest
  fits : requestLength kind.toNat body = some body.length
  taken : s.canTake = true

/-- What a request's reply and its attached Busy replies add to the reply queue. -/
def placed (s : State) (status : Status) (results : List Byte) (reset : Bool) : List Reply :=
  match s.link.requests with
  | r :: _ => { kind := replyKind r.kind, body := status.code :: results, isReset := reset } :: r.busy
  | [] => []

/-- The part once the head request of `s` has been answered, `u` being what its owner has made of `s`: the request
has left the queue and its replies have joined the reply queue; all else is as in `u` (R182). -/
def replied (s : State) (status : Status) (results : List Byte) (u : State) : State :=
  { u with
    cause := false
    link := { u.link with
      requests := s.link.requests.tail
      replies := s.link.replies ++ placed s status results u.link.resetScope.isSome } }

/-- ... and once a transmitter that waited has begun to send what was placed or listed first (R183). -/
def answered (s : State) (status : Status) (results : List Byte) (u : State) : State :=
  sendIfIdle (replied s status results u)

/-- Refused: the reply is the only change (R182, R188). -/
def refused (s : State) (status : Status) : State := answered s status [] s

/-- A part whose host receiver has ended a frame with a fault (R180). -/
def linkFaulted (s : State) (c : LinkErrorCause) : State :=
  { s with
    cause := false
    link := LinkController.raise
      { s.link with rx := { state := .hunting, lastAt := s.now }, lastError := some (c, s.clock.counter) } .linkFault }

/-! ### A travel whose span the passage check has answered (R66, R69, R76) -/

/-- The engine holds the slot of the line where its position has come to rest, and has sent the Script Table a Designation
where that is another than before (R66; that the engine holds the slot is log 27). -/
def Designated (w t : State) : Prop :=
  let slot := (t.engine.live.bind (fun q => w.script.locate q.block)).map (·.1)
  t.engine.liveSlot = slot.or w.engine.liveSlot ∧
  t.mail.toScript = w.mail.toScript ++ (match slot with
    | some k => if w.engine.liveSlot = some k then [] else [{ req := w.cause, body := .designation k }]
    | none => [])

/-- How a travel ends. `w` is the part as it hands the span to the passage check, `c` what the check makes of it and its
answer, `t` the part after the event; `stop` is the span's end, and `cause` what halts the scroll there. Clear: the
position is the span's end. Paused at a block: the position is the start of that line, and the scroll halts with
MARKER in place of any other cause (R76). The Cue Monitor, what it has sent and the notices it has raised are as the
check left them; target, preview and settings are kept (R67, R69). -/
def Travelled (w : State) (c : State × Option Nat) (stop : Pos) (cause : Option HaltCause) (t : State) : Prop :=
  let rests (e : Engine) (q : Pos) : Prop := t.engine = { e with live := some q, liveSlot := t.engine.liveSlot }
  let halts (k : HaltCause) (q : Pos) : Prop :=
    rests { w.engine with
      motion := .halted, velocity := 0, goal := none, haltCause := k, haltFrame := w.clock.counter } q ∧
    t.link = c.1.link.raise .scrollHalted
  t.cues = c.1.cues ∧ Designated w t ∧
  { t.mail with toScript := c.1.mail.toScript, publish := c.1.mail.publish } = c.1.mail ∧
  match c.2, cause with
  | some b, _ => halts .marker { block := b, sub := 0 }
  | none, some k => halts k stop
  | none, none => rests w.engine stop ∧ t.link = c.1.link

/-! ### What a command may change -/

/-- The parts of the state: the blocks, the Link Controller's notice list, the frame it is sending and the end of
that frame's transmission apart from the rest of it, the messages between blocks and the timebase. -/
inductive Part where
  | store | script | engine | arbiter | ports | cues | clock | heads | link | notices | sending | ending | mail | now
  deriving DecidableEq, Repr

/-- Nothing but the named parts differs between two states (`cause`, the model's own mark, aside). -/
structure Same (ps : List Part) (s t : State) : Prop where
  store : .store ∉ ps → t.store = s.store
  script : .script ∉ ps → t.script = s.script
  engine : .engine ∉ ps → t.engine = s.engine
  arbiter : .arbiter ∉ ps → t.arbiter = s.arbiter
  ports : .ports ∉ ps → t.ports = s.ports
  cues : .cues ∉ ps → t.cues = s.cues
  clock : .clock ∉ ps → t.clock = s.clock
  heads : .heads ∉ ps → t.heads = s.heads
  link : .link ∉ ps → { t.link with notices := [], sending := none } = { s.link with notices := [], sending := none }
  notices : .notices ∉ ps → t.link.notices = s.link.notices
  sending : .sending ∉ ps → t.link.sending = s.link.sending
  /-- A frame whose transmission has begun is finished (R183). -/
  ending : .ending ∉ ps → s.link.sending ≠ none → t.link.sending = s.link.sending
  /-- Only the Cue Monitor lists Timer Expired, whose sampling empties its expired set (R151, R183). -/
  expiry : .cues ∉ ps → .timerExpired ∈ t.link.notices → .timerExpired ∈ s.link.notices
  mail : .mail ∉ ps → t.mail = s.mail
  now : .now ∉ ps → t.now = s.now
  pending : t.pending = s.pending

/-- The parts that the rules let a command change. A request changes the queues of the Link Controller; a command that
places a reply or lists a notice sets a transmitter that waits going (R183); an event that makes a block take what waits
for it first (R40, log 8, log 10) changes what that changes. Only the transmitter's own command and a reset end the
transmission of a frame. -/
def touches : Instr → List Part
  | .powerOnReset _ _ | .resetTakesEffect =>
    [.store, .script, .engine, .arbiter, .ports, .cues, .clock, .heads, .link, .notices, .sending, .ending, .mail, .now]
  | .checkedFrame _ | .receiveFault _ | .frameTimeout => [.link, .notices, .sending]
  | .transmitNext => [.link, .notices, .sending, .ending, .cues]
  | .unknownRequest | .queryStory | .queryStore | .queryOrder | .readLine | .queryFault | .queryMotion | .queryDrive
  | .queryCues | .queryTimers | .queryFrame | .queryHead | .identify | .reset => [.link, .sending]
  | .openStory | .clearFault => [.link, .sending, .script]
  | .appendLine => [.link, .store, .script, .notices, .sending]
  | .closeStoryCommit | .placeEntry | .moveEntry | .removeEntry | .floatEntry => [.link, .sending, .script, .mail]
  | .closeStoryAbandon | .freeStory => [.link, .sending, .store, .script, .mail]
  | .setStory => [.link, .script, .engine, .mail, .notices, .sending]
  | .insertLine | .replaceLine | .deleteLines => [.link, .store, .script, .mail, .notices, .sending]
  | .run | .stop | .step | .setSpeed | .setMotion | .setPreview => [.link, .sending, .engine]
  | .halt => [.link, .engine, .notices, .sending]
  | .goTo => [.link, .engine, .mail, .notices, .sending]
  | .setDriveMode | .setPortClass | .pinDrive | .claimDrive | .releaseDrive => [.link, .arbiter, .mail, .notices, .sending]
  | .enablePort | .disablePort => [.link, .sending, .ports, .mail]
  | .resetPort => [.link, .ports, .mail, .notices, .sending]
  | .setPort | .setLamp | .queryPort => [.link, .sending, .ports]
  | .skipCue | .setTimer | .startTimer | .stopTimer => [.link, .sending, .cues]
  | .setFrame | .setReference => [.link, .sending, .clock]
  | .setHead => [.link, .sending, .heads]
  | .setNotices => [.link, .store, .notices, .sending]
  | .designationReport => [.script, .mail, .notices, .sending]
  | .airFrameReport => [.script, .mail]
  | .passHolderInput _ => [.mail]
  | .insertReport | .deleteReport | .storyIneligibleReport | .storyEligibleReport | .orderChangedReport | .setTarget
  | .startStopKey | .stopExpiryAction => [.engine, .mail, .notices, .sending]
  | .frameAdvance | .jog => [.engine, .cues, .mail, .notices, .sending]
  | .claim _ | .idle _ | .portReady _ | .portGone _ => [.arbiter, .mail, .notices, .sending]
  | .standingReport _ | .presenceFound _ | .presenceLost _ | .holdOffEnd _ | .overcurrent _ | .poll _
  | .silenceFault _ | .hello _ _ | .dataReport _ _ | .lampFlash _ | .lampFlashEnd _ => [.ports, .mail, .notices, .sending]
  | .releaseTimeReached _ => [.ports, .mail]
  | .cueFrameStart | .timerExpiry _ | .positionJumped | .lineRewritten | .scriptChangeReport =>
    [.cues, .mail, .notices, .sending]
  | .flashCountEnd | .cueFlagCountEnd => [.cues, .mail]
  | .freeRunFrameStart => [.clock, .mail]
  | .referencePulse | .flywheelFrame => [.clock, .mail, .notices, .sending]
  | .viewBuild _ | .cueFlag _ | .cueFlagEnd _ => [.heads, .mail]
  | .headReady _ _ | .fetch _ _ | .headFrameDiscard _ _ | .headSilenceTimeout _ => [.heads, .notices, .sending]
  | .headTransmit _ => [.heads]

/-! ### The blocks of the Text Store that a command writes (R7 to R9) -/

/-- The part after a Take Block of the pool's head, with its Store Low test (R7, R11). -/
def blockTaken (s : State) (n : Nat) (rest : List Nat) (r : LineRecord) : State :=
  let t := s.withStore { s.store with
    pool := rest
    blocks := writeBlock s.store.blocks n { gen := (s.store.read n).gen, record := some r }
    armed := s.store.armed && decide (s.store.threshold ≤ rest.length) }
  if s.store.armed = true ∧ rest.length < s.store.threshold then raise .storeLow t else t

/-- The story that a slot number names. -/
def storyAt (s : State) (n : Nat) : Story := if h : n < 64 then s.script.stories[n] else Story.free

/-- The blocks that a command can write: of an append or an insert the head of the pool, of a replace the block of the
line it names, of a delete its run, of a free or an abandon every line of the story. -/
def writtenBlocks (c : Instr) (s : State) : List Nat :=
  let body := (s.link.requests.head?.map (·.body)).getD []
  match c with
  | .appendLine | .insertLine => s.store.pool.take 1
  | .replaceLine => ((storyAt s (u8 body 0)).lines.drop (u16 body 1)).take 1
  | .deleteLines => ((storyAt s (u8 body 0)).lines.drop (u16 body 1)).take (u8 body 3)
  | .freeStory => (storyAt s (u8 body 0)).lines
  | .closeStoryAbandon => (s.script.load.map (fun k => s.script.stories[k].lines)).getD []
  | _ => []

/-! ### Text Store and Script Table: every block in one place (R1, R5, R6, R17, R29) -/

/-- The blocks of every line list. -/
def ScriptTable.allLines (t : ScriptTable) : List Nat := t.stories.toList.flatMap (·.lines)

/-- The blocks and the script agree. -/
structure StoreInv (s : State) : Prop where
  canonical : BlocksWf s.store.blocks
  numbered : ∀ c ∈ s.store.blocks, c.1 < Config.blocks
  /-- Each block lies in the pool or in one line list, once (R1, R6). -/
  placed : (s.store.pool ++ s.script.allLines).Perm (List.range Config.blocks)
  /-- A free block holds no record, a block in use holds one (R1). -/
  held : ∀ n, n < Config.blocks → ((s.store.read n).record.isSome = true ↔ n ∉ s.store.pool)
  threshold : s.store.threshold ≤ Config.blocks

/-- The Script Table's own facts. -/
structure ScriptInv (t : ScriptTable) : Prop where
  /-- A FREE slot has its FREE values (R17). -/
  freeValues : ∀ k : Slot, t.stories[k].state = .free → t.stories[k] = Story.free
  /-- The open load names the one LOADING story (R24, R26, R27). -/
  loading : ∀ k : Slot, t.stories[k].state = .loading ↔ t.load = some k
  /-- The running order names each slot at most once, and no FREE slot (R29). -/
  distinct : (t.order.map (·.slot)).Nodup
  placedStories : ∀ e ∈ t.order, t.stories[e.slot].state ≠ .free
  /-- No story is longer than its limit (R17, R25, R45). -/
  limits : ∀ k : Slot, t.stories[k].lines.length ≤ t.stories[k].limit ∧ t.stories[k].limit ≤ 1023
  slugs : ∀ k : Slot, t.stories[k].slug.length ≤ 16
  airFrames : ∀ k : Slot, t.stories[k].airFrames ≤ 65535

/-! ### Scroll Engine (R65, R69, R70) -/

structure EngineInv (e : Engine) : Prop where
  /-- In HALTED the velocity is 0 and there is no target line (R69). -/
  halted : e.motion = .halted → e.velocity = 0 ∧ e.goal = none
  /-- A step target stands in STEPPING, a glide target in GLIDING, and neither in another state (R81, R83). -/
  stepping : e.motion = .stepping ↔ e.goal.map (·.glide) = some false
  gliding : e.motion = .gliding ↔ e.goal.map (·.glide) = some true
  /-- At a VOID position the scroll is HALTED (R65). -/
  void : e.live = none → e.motion = .halted
  /-- A subline is 0..255 (R65). -/
  subline : ∀ p, e.live = some p → p.sub ≤ 255
  velocity : e.velocity.natAbs ≤ 1024
  /-- In RUNNING and STOPPING the velocity keeps to the max speed (R69). -/
  maxSpeed : e.motion = .running ∨ e.motion = .stopping → e.velocity.natAbs ≤ e.settings.maxSpeed
  target : e.target.natAbs ≤ e.settings.maxSpeed
  settings : 1 ≤ e.settings.maxSpeed ∧ e.settings.maxSpeed ≤ 1024 ∧ 1 ≤ e.settings.accel ∧ e.settings.accel ≤ 256 ∧
    16 ≤ e.settings.stepSpeed ∧ e.settings.stepSpeed ≤ 1024

/-- The live position in a part whose Scroll Engine has taken every report that waits: it is VOID exactly when no story
is eligible, and otherwise its block lies in the line list of an eligible story, the one it designates (R65, R66). -/
structure LivePlaced (s : State) : Prop where
  void : s.engine.live = none → s.engine.liveSlot = none ∧ ∀ k : Slot, s.script.eligible k = false
  placed : ∀ p, s.engine.live = some p →
    ∃ k : Slot, s.engine.liveSlot = some k ∧ s.script.eligible k = true ∧ p.block ∈ s.script.stories[k].lines

/-- The live position at every moment: it is in place once the reports that wait are taken. Only the last request has
reports waiting, and none waits while a Reset does (R40, R182, R186). -/
structure LiveInv (s : State) : Prop where
  reports : ∀ m ∈ s.mail.engineReports, m.req = true
  reset : s.link.resetScope.isSome = true → s.mail.engineReports = []
  live : LivePlaced (takeReports s)

/-! ### Drive Arbiter (R119, R120, R122) -/

structure ArbiterInv (a : Arbiter) : Prop where
  /-- A port's drive state is what holder, waiting list and bars make it (R119). -/
  states : ∀ p : PortNo, a.driveStates[p] = a.stateOf p
  /-- A port that holds the drive is ENABLED and not barred, and does not wait (R119). -/
  holder : ∀ p : PortNo, a.holder = some (.port p) → a.enabled[p] = true ∧ a.barred p = false ∧ p ∉ a.joined
  /-- The list holds only ENABLED, unbarred ports (R122), each once. -/
  waiting : ∀ p : PortNo, p ∈ a.joined → a.enabled[p] = true ∧ a.barred p = false
  distinct : a.joined.Nodup
  /-- The holder is DESK exactly while the desk claim stands (R119). -/
  desk : a.holder = some .desk ↔ a.deskClaim = true
  /-- Whenever the drive is free the list is empty (R122). -/
  free : a.holder = none → a.joined = []

/-! ### Control Ports (R96, R98 to R100) -/

structure PortInv (q : Port) : Prop where
  /-- A fault cause stands exactly in FAULTED (R96, R98, R100, R103). -/
  fault : q.state = .faulted ↔ q.fault.isSome = true
  /-- A port polls only with its supply on (R98, R100), and in DETACHED the supply is off (R98, R103). -/
  powered : q.state.polls = true → q.supply = true
  detached : q.state = .detached → q.supply = false ∧ q.kind = none
  /-- An ATTACHED or ENABLED port knows its kind (R99). -/
  kind : q.state = .attached ∨ q.state = .enabled → q.kind.isSome = true
  /-- The hold-off runs only in DETACHED (R103). -/
  holdOff : q.holdOff.isSome = true → q.state = .detached
  silence : q.silence ≤ 10
  acquired : q.acquired ≤ 8
  idle : q.idle ≤ 1000

/-! ### Cue Monitor (R138, R148, R151) -/

structure CueInv (c : CueMonitor) : Prop where
  depth : c.queue.length ≤ Config.cueDepth
  reload : ∀ n : TimerNo, 1 ≤ c.timers[n].reload ∧ c.timers[n].reload ≤ 65535 ∧ c.timers[n].count ≤ 65535
  /-- Timer 0 is never CHAINED (R148). -/
  chain : c.timers[(0 : TimerNo)].mode ≠ .chained
  expired : c.expired &&& 0xC0 = 0
  /-- The expiries that are due come in number order (R151). -/
  expiring : c.expiring.Pairwise (· < ·)

/-! ### Frame Clock (R155, R158) -/

structure ClockInv (c : FrameClock) : Prop where
  period : 8000 ≤ c.period ∧ c.period ≤ 42000
  trim : -128 ≤ c.trim ∧ c.trim ≤ 127
  /-- The run reaches 2 only by going to LOCKED (R159). -/
  goodRun : c.goodRun ≤ 2 ∧ (c.lock ≠ .locked → c.goodRun ≤ 1)
  /-- The third flywheel frame ends LOCKED and clears the count (R160). -/
  flywheel : c.flywheel ≤ 2
  /-- The lock state is FREE exactly in mode FREE (R158). -/
  mode : c.lock = .free ↔ c.mode = .free

/-! ### Head Links (R164 to R166, R169, R172) -/

structure HeadInv (hd : Head) : Prop where
  /-- At most two views, of different frame numbers, each with its rows + 1 entries (R169, R172). -/
  history : hd.history.length ≤ 2 ∧ (hd.history.map (·.frame)).Nodup
  tables : ∀ v ∈ hd.history, v.table.length = v.rows + 1
  /-- At most one view record and 16 fetch replies wait (R165). -/
  views : (hd.queue.filter HeadFrame.isView).length ≤ 1
  replies : (hd.queue.filter (fun f => !f.isView)).length ≤ Config.fetchDepth
  /-- In DOWN nothing is held and nothing waits (R164). -/
  down : hd.up = false → hd.history = [] ∧ hd.queue = []
  settings : 4 ≤ hd.settings.rows ∧ hd.settings.rows ≤ 24 ∧ hd.settings.readingRow < hd.settings.rows

/-! ### Link Controller (R181, R182, R184) -/

structure LinkInv (l : LinkController) : Prop where
  requests : l.requests.length ≤ Config.requestDepth
  busy : l.busyHeld ≤ Config.busyDepth
  replies : l.replies.length ≤ Config.replyDepth
  /-- At most one pending notice of a kind, and none of a kind masked off (R184). -/
  distinct : l.notices.Nodup
  enabled : ∀ n ∈ l.notices, n.enabledBy l.mask = true
  /-- A transmitter that sends nothing has nothing to send (R183). -/
  waits : l.sending = none → l.replies = [] ∧ l.notices = []

/-! ### All of it -/

/-- What the spec says of the part at every moment. -/
structure Inv (s : State) : Prop where
  store : StoreInv s
  script : ScriptInv s.script
  engine : EngineInv s.engine
  live : LiveInv s
  arbiter : ArbiterInv s.arbiter
  ports : ∀ p : PortNo, PortInv s.ports[p]
  cues : CueInv s.cues
  clock : ClockInv s.clock
  heads : ∀ h : HeadNo, HeadInv s.heads[h]
  link : LinkInv s.link

/-- A property that a step cannot lose. -/
def Kept (p : State → Prop) : Prop := ∀ s t, p s → step s = .next t → p t

end Sys2Proof.Machine
end

