-- ==== Sys2Proof/Certificates/Slice0/Obligations.lean ====
section
/-! DEFINITION. The statements for the provers: def Obligations.<Name>. A statement about several commands of one kind is the
conjunction of one claim (Sys2Proof.Claims.<Name>) for each. -/

section
open Sys2Proof Sys2Proof.Machine

/-! ### The step -/

/-- Step takes the command at the front of the queue and executes it on the part with the queue's rest. -/
def Obligations.StepRunsTheFront : Prop :=
  ∀ (c : Instr) (rest : List Instr) (s : State),
    step { s with pending := c :: rest } = exec c { s with pending := rest }

/-- With no command queued, step executes the part's own next event, and when nothing is due the timebase moves on by
one (the model's choice, log 2). -/
def Sys2Proof.Claims.EmptyQueue : Prop :=
  ∀ s : State, s.pending = [] →
    (∀ c, nextEvent s = some c → step s = exec c s) ∧
    (nextEvent s = none → step s = .next { s with now := s.now + 1 })

/-- An event that is not ready changes nothing (the model's choice, log 1): every request row whose request is not at the
head of the request queue, or while the head request cannot be taken; every message row whose channel is empty or has a
message of another kind at its head. A Close Story is a row's by its mode (log 25), and QUERY_PORT is a row with something
to do while a clearing is left (log 42). -/
def Sys2Proof.Claims.NotReadyChangesNothing : Prop :=
  ∀ s : State,
    let rows : List (Byte × Instr) :=
      [(0x10, .openStory), (0x11, .appendLine), (0x12, .closeStoryCommit), (0x12, .closeStoryAbandon),
       (0x13, .freeStory), (0x14, .setStory), (0x15, .queryStory), (0x16, .queryStore),
       (0x20, .placeEntry), (0x21, .moveEntry), (0x22, .removeEntry), (0x23, .floatEntry), (0x24, .queryOrder)] ++
      [(0x28, .insertLine), (0x29, .replaceLine), (0x2A, .deleteLines), (0x2B, .readLine), (0x2C, .queryFault),
       (0x2D, .clearFault), (0x30, .run), (0x31, .stop), (0x32, .halt), (0x33, .step), (0x34, .goTo),
       (0x35, .setSpeed), (0x36, .setMotion), (0x37, .setPreview), (0x38, .queryMotion)] ++
      [(0x40, .setDriveMode), (0x41, .setPortClass), (0x42, .pinDrive), (0x43, .claimDrive), (0x44, .releaseDrive),
       (0x45, .queryDrive), (0x48, .enablePort), (0x49, .disablePort), (0x4A, .resetPort), (0x4B, .setPort),
       (0x4C, .setLamp)] ++
      [(0x50, .queryCues), (0x51, .skipCue), (0x52, .setTimer), (0x53, .startTimer), (0x54, .stopTimer),
       (0x55, .queryTimers), (0x58, .setFrame), (0x59, .setReference), (0x5A, .queryFrame), (0x60, .setHead),
       (0x61, .queryHead), (0x70, .identify), (0x71, .setNotices), (0x72, .reset)]
    let report : ScriptReport → Instr := fun r => match r with
      | .insert _ _ _ => .insertReport
      | .delete _ _ _ => .deleteReport
      | .ineligible _ _ => .storyIneligibleReport
      | .eligible _ => .storyEligibleReport
      | .orderChanged => .orderChangedReport
    (∀ x ∈ rows, s.canTake = false ∨ (∀ r, s.link.requests.head? = some r → r.kind ≠ x.1) →
      exec x.2 s = .next s) ∧
    (∀ r, s.link.requests.head? = some r →
      (r.kind = 0x12 → r.body = [1] → exec .closeStoryCommit s = .next s) ∧
      (r.kind = 0x12 → r.body ≠ [1] → exec .closeStoryAbandon s = .next s) ∧
      (r.kind = 0x4D ∨ (∃ x ∈ rows, r.kind = x.1) → exec .unknownRequest s = .next s)) ∧
    (s.canTake = false → exec .unknownRequest s = .next s) ∧
    ((∀ p : PortNo, s.ports[p].ackDue = none) →
      s.canTake = false ∨ (∀ r, s.link.requests.head? = some r → r.kind ≠ 0x4D) → exec .queryPort s = .next s) ∧
    (∀ c ∈ [Instr.insertReport, .deleteReport, .storyIneligibleReport, .storyEligibleReport, .orderChangedReport],
      (∀ m, s.mail.engineReports.head? = some m → report m.body ≠ c) → exec c s = .next s) ∧
    ((∀ m, s.mail.cueReports.head? = some m → ∀ r, m.body ≠ .report r) → exec .scriptChangeReport s = .next s) ∧
    ((∀ m, s.mail.cueReports.head? = some m → ∀ k b, m.body ≠ .rewritten k b) → exec .lineRewritten s = .next s) ∧
    ((∀ m, s.mail.toScript.head? = some m → ∀ k, m.body ≠ .designation k) → exec .designationReport s = .next s) ∧
    ((∀ m, s.mail.toScript.head? = some m → ∀ k, m.body ≠ .airFrame k) → exec .airFrameReport s = .next s) ∧
    (s.mail.cueJumps = [] → exec .positionJumped s = .next s) ∧
    (s.mail.engineFrames = [] → exec .frameAdvance s = .next s) ∧
    (s.mail.cueFrames = [] → exec .cueFrameStart s = .next s) ∧
    (s.mail.engineStops = [] → exec .stopExpiryAction s = .next s) ∧
    ((∀ m, s.mail.engineInput.head? = some m → ∀ v, m.body ≠ .setTarget v) → exec .setTarget s = .next s) ∧
    ((∀ m, s.mail.engineInput.head? = some m → m.body ≠ .key) → exec .startStopKey s = .next s) ∧
    ((∀ m, s.mail.engineInput.head? = some m → ∀ d, m.body ≠ .jog d) → exec .jog s = .next s) ∧
    (∀ p : PortNo,
      (∀ x ∈ [(PortMsg.claim, Instr.claim p), (.idle, .idle p), (.ready, .portReady p), (.gone, .portGone p)],
        (∀ m, s.mail.toArbiter[p].head? = some m → m.body ≠ x.1) → exec x.2 s = .next s) ∧
      ((∀ m, s.mail.toArbiter[p].head? = some m → m.body ∈ [PortMsg.claim, .idle, .ready, .gone]) →
        exec (.passHolderInput p) s = .next s) ∧
      (s.mail.standing[p] = [] → exec (.standingReport p) s = .next s) ∧
      ((∀ m, s.mail.flash[p].head? = some m → m.body = false) → exec (.lampFlash p) s = .next s) ∧
      ((∀ m, s.mail.flash[p].head? = some m → m.body = true) → exec (.lampFlashEnd p) s = .next s)) ∧
    (∀ h : HeadNo,
      (s.mail.publish[h] = [] → exec (.viewBuild h) s = .next s) ∧
      ((∀ m, s.mail.cueFlag[h].head? = some m → m.body = false) → exec (.cueFlag h) s = .next s) ∧
      ((∀ m, s.mail.cueFlag[h].head? = some m → m.body = true) → exec (.cueFlagEnd h) s = .next s))

/-- With no command queued the part executes its own next event, or a microsecond passes; an event that is not ready changes
nothing (the model's choices, logs 1 and 2). -/
def Obligations.IdleStep : Prop :=
  Claims.EmptyQueue ∧ Claims.NotReadyChangesNothing

/-! ### Resets (R15, R16, R41, R63, R94, R95, R117, R118, R136, R137, R153, R154, R163, R177, R186, R187) -/

/-- A power-on reset brings every block to its power-on values, of which every one is given here, and samples the RATE
pins; the queue of commands is not the part's. The values that the spec does not give are the model's: the timebase from 0
(log 3), no event under way (log 7), nothing left of a poll or a frame start (log 10), every channel of messages empty (a
power-on reset drops what was sent and not yet taken, log 13), the strip baselines (log 17), the working state of a port
(log 23), no slot for a VOID position (log 27), no flags of a Query Port left to clear (log 42), and the lines of a head
link with the time of the last character at the host's receiver (log 52). -/
def Obligations.PowerOnReset : Prop :=
  ∀ (rate1 rate0 : Bool) (s : State), ∃ t, exec (.powerOnReset rate1 rate0) s = .next t ∧ t.pending = s.pending ∧
    t.now = 0 ∧ t.cause = false ∧
    (∀ n, t.store.read n = { gen := 0, record := none }) ∧ t.store.pool = List.range 8192 ∧
    t.store.threshold = 256 ∧ t.store.armed = true ∧
    (∀ k : Slot, t.script.stories[k] =
      { state := .free, access := .opened, limit := 0, lines := [], slug := [], aired := false, changed := false
        airFrames := 0 }) ∧
    t.script.order = [] ∧ t.script.load = none ∧ t.script.lastAired = none ∧ t.script.lastChanged = none ∧
    t.script.fault = none ∧ t.script.watch = none ∧
    t.engine =
      { live := none, liveSlot := none, preview := none, motion := .halted, velocity := 0, target := 0
        haltCause := .powerOn, haltFrame := 0, goal := none
        settings := { maxSpeed := 512, accel := 16, stepSpeed := 128, stepKeys := false } } ∧
    t.arbiter.holder = none ∧ t.arbiter.deskClaim = false ∧ t.arbiter.pin = none ∧ t.arbiter.mode = .operatorFirst ∧
    t.arbiter.joined = [] ∧
    (∀ p : PortNo, t.arbiter.classes[p] = (if p = 0 then .operator else .presenter) ∧
      t.arbiter.enabled[p] = false ∧ t.arbiter.active[p] = false ∧ t.arbiter.driveStates[p] = .idle ∧
      t.ports[p] =
        { state := .detached, fault := none, kind := none
          connectChange := false, enableChange := false, faultChange := false
          supply := false, silence := 0, holdOff := none
          common := { autoEnable := true, releaseTime := 200, tolerance := 8 }
          wheel := { style := .speed, speedStep := 8, jogSize := 64 }
          strip := { style := .hold, threshold := 120, gain := 8 }
          pedal := { deadBand := 12, gain := 8 }
          baselines := Vector.replicate 5 0, sums := Vector.replicate 5 0, acquired := 0
          reverse := false, mapped := none, prevMapped := none, pickup := .pickedUp, lastSent := none
          idle := 0, idleSent := false, drive := .idle, cls := if p = 0 then .operator else .presenter
          lampOverride := none, pattern := { on := 0, off := 0 }, phase := 0, flash := false
          watchFrom := 0, nextPoll := 0, answered := false, releaseDue := false
          rx := .hunting, pollOut := [], ackDue := none }) ∧
    t.cues.queue = [] ∧ t.cues.lastFired = none ∧ t.cues.flashCount = 0 ∧ t.cues.flagCount = 0 ∧ t.cues.expired = 0 ∧
    t.cues.flashEndDue = false ∧ t.cues.flagEndDue = false ∧ t.cues.expiring = [] ∧
    (∀ n : TimerNo, t.cues.timers[n] =
      { mode := .oneShot, reload := 1, count := 0, running := false, action := .none }) ∧
    t.clock =
      { period := 20000, trim := 0, mode := .free, lock := .free, counter := 0, lastStart := t.now
        interval := 20000, lastPulse := none, goodRun := 0, flywheel := 0, event := none } ∧
    (∀ h : HeadNo, t.heads[h] =
      { up := false, silentSince := t.now
        settings := { enable := h.val == 0, source := .live, mirror := false, rows := 12, readingRow := 3 }
        history := [], queue := [], sending := none, cueFlag := false, rx := { state := .hunting, lastAt := t.now } }) ∧
    t.link =
      { requests := [], replies := [], notices := [], mask := 0x1FFF, lastError := none
        rx := { state := .hunting, lastAt := t.now }, sending := none, resetScope := none
        rate := 2 * rate1.toNat + rate0.toNat } ∧
    t.mail.toScript = [] ∧ t.mail.engineReports = [] ∧ t.mail.engineFrames = [] ∧ t.mail.engineStops = [] ∧
    t.mail.engineInput = [] ∧ t.mail.cueReports = [] ∧ t.mail.cueJumps = [] ∧ t.mail.cueFrames = [] ∧
    (∀ p : PortNo, t.mail.toArbiter[p] = [] ∧ t.mail.standing[p] = [] ∧ t.mail.flash[p] = []) ∧
    (∀ h : HeadNo, t.mail.cueFlag[h] = [] ∧ t.mail.publish[h] = [])

/-- The state after reset has every invariant. -/
def Obligations.ResetHasTheInvariants : Prop := Inv State.reset

/-- A Reset that is accepted waits: its Done is placed, marked, and until it has taken effect no request is taken. -/
def Sys2Proof.Claims.ResetAccepted : Prop :=
  ∀ (s : State) (b : Byte), Serving s 0x72 [b] →
    (∀ x, Scope.ofByte b = some x →
      exec .reset s = .next (answered s .done [] (s.withLink { s.link with resetScope := some x })) ∧
      (answered s .done [] (s.withLink { s.link with resetScope := some x })).canTake = false) ∧
    (Scope.ofByte b = none → exec .reset s = .next (refused s .range))

/-- The end of the transmission of the Done is what it waits for: no other transmission begins before the reset takes
effect, and a Reset whose Done is not the frame being sent does not take effect.
That this command is that end is the model's reading (log 6). -/
def Sys2Proof.Claims.ResetWaitsForItsDone : Prop :=
  ∀ s : State,
    (s.link.sendsReset = true → exec .transmitNext s = .next s) ∧
    (s.link.resetScope = none ∨ s.link.sendsReset = false → exec .resetTakesEffect s = .next s)

/-- A Reset request is refused with Range or accepted, and an accepted one waits for the end of the transmission of its
Done. -/
def Obligations.ResetRequest : Prop :=
  Claims.ResetAccepted ∧ Claims.ResetWaitsForItsDone

/-- A scope with ALL, nothing of the last frame start being left to do: every block takes its power-on values, but for halt
cause RESET, the ports' hold-off, the generations, and what the ports, the heads, the receiver and the rate keep. Blocks in
use are returned with a new generation. A port whose standing changes is sent it, the ends of a flash and of a cue flag
go out where the counts ran, no notice and no reply is left, and of the other messages those of the ports to the arbiter
are dropped (the model's choice, log 13). That a head link keeps the frame it is receiving, and a fetch reply begun, is the
model's choice (log 54). -/
def Sys2Proof.Claims.ResetAll : Prop :=
  ∀ (s : State) (x : Scope), s.link.resetScope = some x → s.link.sendsReset = true → x.all = true →
    s.cues.quiet = true → BlocksWf s.store.blocks →
    let auto (x : Port) : Pattern :=
      if x.flash = true ∧ x.cls = .presenter then { on := 5, off := 5 }
      else if x.drive = .holding then (if x.pickup = .pickedUp then { on := 1, off := 0 } else { on := 10, off := 10 })
      else if x.drive = .waiting then { on := 25, off := 25 }
      else { on := 0, off := 0 }
    let lit (x : Port) : Port :=
      let pat := x.lampOverride.getD (auto x)
      if pat = x.pattern then x else { x with pattern := pat, phase := 0 }
    let reset (q : Port) : Port := lit { q with
      state := .detached, supply := false, holdOff := some (s.now + 100000), fault := none, kind := none
      connectChange := false, enableChange := false, faultChange := false
      baselines := Vector.replicate 5 0, sums := Vector.replicate 5 0, acquired := 0
      reverse := false, mapped := none, prevMapped := none, lastSent := none, pickup := .pickedUp
      common := { autoEnable := true, releaseTime := 200, tolerance := 8 }
      wheel := { style := .speed, speedStep := 8, jogSize := 64 }
      strip := { style := .hold, threshold := 120, gain := 8 }
      pedal := { deadBand := 12, gain := 8 }
      lampOverride := none, flash := false
      releaseDue := false, rx := .hunting, watchFrom := s.now, ackDue := none }
    let fresh (h : HeadNo) : Head := { s.heads[h] with
      settings := { enable := h.val == 0, source := .live, mirror := false, rows := 12, readingRow := 3 }
      history := [], queue := [] }
    ∃ t, exec .resetTakesEffect s = .next t ∧
      (∀ n, t.store.read n = if (s.store.read n).record.isSome then
          { gen := (s.store.read n).gen + 1, record := none } else s.store.read n) ∧
      t.store.pool = List.range 8192 ∧ t.store.threshold = 256 ∧ t.store.armed = true ∧
      (∀ k : Slot, t.script.stories[k] =
        { state := .free, access := .opened, limit := 0, lines := [], slug := [], aired := false, changed := false
          airFrames := 0 }) ∧
      t.script.order = [] ∧ t.script.load = none ∧ t.script.lastAired = none ∧ t.script.lastChanged = none ∧
      t.script.fault = none ∧ t.script.watch = none ∧
      t.engine =
        { live := none, liveSlot := none, preview := none, motion := .halted, velocity := 0, target := 0
          haltCause := .reset, haltFrame := 0, goal := none
          settings := { maxSpeed := 512, accel := 16, stepSpeed := 128, stepKeys := false } } ∧
      t.arbiter =
        { holder := none, deskClaim := false, pin := none, mode := .operatorFirst
          classes := #v[.operator, .presenter, .presenter, .presenter]
          enabled := Vector.replicate 4 false, active := Vector.replicate 4 false
          driveStates := Vector.replicate 4 .idle, joined := [] } ∧
      (∀ p : PortNo, t.ports[p] = reset s.ports[p]) ∧
      t.cues =
        { queue := [], lastFired := none, flashCount := 0, flagCount := 0
          timers := Vector.replicate 6 { mode := .oneShot, reload := 1, count := 0, running := false, action := .none }
          expired := 0, flashEndDue := false, flagEndDue := false, expiring := [] } ∧
      t.clock =
        { period := 20000, trim := 0, mode := .free, lock := .free, counter := 0, lastStart := s.now
          interval := 20000, lastPulse := none, goodRun := 0, flywheel := 0, event := none } ∧
      (∀ h : HeadNo, t.heads[h] = fresh h) ∧
      t.link =
        { requests := [], replies := [], notices := [], mask := 0x1FFF, lastError := none, rx := s.link.rx
          sending := none, resetScope := none, rate := s.link.rate } ∧
      (∀ p : PortNo, t.mail.standing[p] = s.mail.standing[p] ++
        if s.arbiter.driveStates[p] = t.arbiter.driveStates[p] ∧ s.arbiter.classes[p] = t.arbiter.classes[p] then []
        else [{ req := true, body := (t.arbiter.driveStates[p], t.arbiter.classes[p]) }]) ∧
      t.mail = { s.mail with
        standing := t.mail.standing, toArbiter := Vector.replicate 4 []
        flash := if 0 < s.cues.flashCount then s.mail.flash.map (· ++ [{ req := true, body := false }])
          else s.mail.flash
        cueFlag := if 0 < s.cues.flagCount then s.mail.cueFlag.map (· ++ [{ req := true, body := false }])
          else s.mail.cueFlag } ∧
      t.now = s.now ∧ t.pending = s.pending ∧ t.cause = false

/-- A scope without ALL, nothing of the last frame start being left to do: each block the scope names takes its part, and
the others keep everything. SCRIPT: the blocks, the pool, the script, the positions and the cue queue. MOTION: the engine's
settings, the arbiter and the timers, the queue rebuilt with every marker ARMED. Either halts the scroll, with Scroll Halted
where it was not halted. PORTS: the ports, and the drive released. A port whose standing changes is sent it, and Drive
Changed follows the drive. The Link Controller keeps its own state; the end of the Done sets the transmitter free, and it
takes its next frame (log 6). What the ports have sent the arbiter goes with a PORTS reset, and so does what a poll has
left a port to do (the model's choices, logs 13 and 47). HEADS leaves a head link the frame it is receiving, and a fetch
reply begun (the model's choice, log 54). Where a scope raises both, Scroll Halted is listed before Drive Changed (the
model's choice, log 48). -/
def Sys2Proof.Claims.ResetOfAScope : Prop :=
  ∀ (s : State) (x : Scope), s.link.resetScope = some x → s.link.sendsReset = true → x.all = false →
    s.cues.quiet = true → BlocksWf s.store.blocks →
    let auto (x : Port) : Pattern :=
      if x.flash = true ∧ x.cls = .presenter then { on := 5, off := 5 }
      else if x.drive = .holding then (if x.pickup = .pickedUp then { on := 1, off := 0 } else { on := 10, off := 10 })
      else if x.drive = .waiting then { on := 25, off := 25 }
      else { on := 0, off := 0 }
    let lit (x : Port) : Port :=
      let pat := x.lampOverride.getD (auto x)
      if pat = x.pattern then x else { x with pattern := pat, phase := 0 }
    let reset (q : Port) : Port := lit { q with
      state := .detached, supply := false, holdOff := some (s.now + 100000), fault := none, kind := none
      connectChange := false, enableChange := false, faultChange := false
      baselines := Vector.replicate 5 0, sums := Vector.replicate 5 0, acquired := 0
      reverse := false, mapped := none, prevMapped := none, lastSent := none, pickup := .pickedUp
      common := { autoEnable := true, releaseTime := 200, tolerance := 8 }
      wheel := { style := .speed, speedStep := 8, jogSize := 64 }
      strip := { style := .hold, threshold := 120, gain := 8 }
      pedal := { deadBand := 12, gain := 8 }
      lampOverride := none, flash := q.flash
      releaseDue := false, rx := .hunting, watchFrom := s.now, ackDue := none }
    let fresh (h : HeadNo) : Head := { s.heads[h] with
      settings := { enable := h.val == 0, source := .live, mirror := false, rows := 12, readingRow := 3 }
      history := [], queue := [] }
    let a := s.arbiter
    let held (y : Arbiter) : Option PortClass := match y.holder with
      | some (.port p) => some y.classes[p]
      | _ => none
    ∃ t, exec .resetTakesEffect s = .next (transmitNext t) ∧
      (x.script = false → t.store = s.store ∧ t.script = s.script) ∧
      (x.script = true →
        (∀ n, t.store.read n = if (s.store.read n).record.isSome then
            { gen := (s.store.read n).gen + 1, record := none } else s.store.read n) ∧
        t.store.pool = List.range 8192 ∧ t.store.threshold = s.store.threshold ∧ t.store.armed = true ∧
        (∀ k : Slot, t.script.stories[k] =
          { state := .free, access := .opened, limit := 0, lines := [], slug := [], aired := false, changed := false
            airFrames := 0 }) ∧
        t.script.order = [] ∧ t.script.load = none ∧ t.script.lastAired = none ∧ t.script.lastChanged = none ∧
        t.script.fault = none ∧ t.script.watch = none) ∧
      t.engine = (if x.script || x.motion then
        { live := if x.script then none else s.engine.live
          liveSlot := if x.script then none else s.engine.liveSlot
          preview := if x.script then none else s.engine.preview
          motion := .halted, velocity := 0, target := 0, haltCause := .reset, haltFrame := s.clock.counter
          goal := none
          settings := if x.motion then { maxSpeed := 512, accel := 16, stepSpeed := 128, stepKeys := false }
            else s.engine.settings } else s.engine) ∧
      (x.motion = false → x.ports = false → t.arbiter = a) ∧
      (x.motion = true → t.arbiter =
        { holder := none, deskClaim := false, pin := none, mode := .operatorFirst
          classes := #v[.operator, .presenter, .presenter, .presenter]
          enabled := if x.ports then Vector.replicate 4 false else a.enabled
          active := Vector.replicate 4 false, driveStates := Vector.replicate 4 .idle, joined := [] }) ∧
      (x.motion = false → x.ports = true →
        t.arbiter = { a with
          holder := if a.deskClaim then some .desk else none, joined := []
          enabled := Vector.replicate 4 false, active := Vector.replicate 4 false
          driveStates := t.arbiter.driveStates } ∧
        ∀ p : PortNo, t.arbiter.driveStates[p] = if a.barred p then .barred else .idle) ∧
      (∀ p : PortNo, t.ports[p] = if x.ports then reset s.ports[p] else s.ports[p]) ∧
      t.cues = { s.cues with
        timers := if x.motion then
            Vector.replicate 6 { mode := .oneShot, reload := 1, count := 0, running := false, action := .none }
          else s.cues.timers
        queue := if x.script then []
          else if x.motion then
            match s.engine.live.bind (fun p => s.script.reach p.block) with
            | some r => (markersOf s.store r.fore).take 16
            | none => []
          else s.cues.queue } ∧
      t.clock = s.clock ∧
      (∀ h : HeadNo, t.heads[h] = if x.heads then fresh h else s.heads[h]) ∧
      t.link =
        (let l := if (x.script || x.motion) = true ∧ s.engine.motion ≠ .halted then s.link.raise .scrollHalted
          else s.link
         { (if a.holder = t.arbiter.holder ∧ held a = held t.arbiter ∧ a.pin = t.arbiter.pin ∧ a.mode = t.arbiter.mode
            then l else l.raise .driveChanged) with resetScope := none }) ∧
      (∀ p : PortNo, t.mail.standing[p] = s.mail.standing[p] ++
        if s.arbiter.driveStates[p] = t.arbiter.driveStates[p] ∧ s.arbiter.classes[p] = t.arbiter.classes[p] then []
        else [{ req := true, body := (t.arbiter.driveStates[p], t.arbiter.classes[p]) }]) ∧
      t.mail = { s.mail with
        standing := t.mail.standing, toArbiter := if x.ports then Vector.replicate 4 [] else s.mail.toArbiter } ∧
      t.now = s.now ∧ t.pending = s.pending ∧ t.cause = false

/-- What the last frame start has left due, the ends of the two counts and the expiries in number order, is carried out
first, under every scope; the reset then takes effect on a Cue Monitor with nothing due (the model's choice, log 44). -/
def Sys2Proof.Claims.ResetFinishesCueWork : Prop :=
  ∀ (s : State) (x : Scope), s.link.resetScope = some x → s.link.sendsReset = true → CueInv s.cues →
    let u := finishCueWork (s.withCause true)
    u.cues.quiet = true ∧ u.link.resetScope = some x ∧ u.link.sendsReset = true ∧
      exec .resetTakesEffect s = exec .resetTakesEffect u

/-- What a Reset does when it takes effect, under ALL and under any other scope. -/
def Obligations.ResetTakesEffect : Prop :=
  Claims.ResetAll ∧ Claims.ResetOfAScope ∧ Claims.ResetFinishesCueWork

/-! ### The host link: receiving, the queues, transmission (R179 to R184) -/

/-- A whole frame with a right check, its characters met by a hunting receiver, joins the request queue while fewer
than four stand in it. With four, a Busy reply of its kind is attached to the request at the tail, while fewer than
three are held; with three held it is an OVERRUN. The receiver hunts again.
That the characters arrive at one moment is the model's choice (log 3). -/
def Obligations.HostFrameReceived : Prop :=
  ∀ (s : State) (kind : Byte) (body : List Byte), s.link.rx.state = .hunting → body.length ≤ 199 →
    let chars := goodChars (linkFrame kind body)
    let rx : LinkRx := { state := .hunting, lastAt := s.now }
    (s.link.requests.length < 4 →
      exec (.checkedFrame chars) s = .next (sendIfIdle { s with
        cause := false
        link := { s.link with
          rx := rx, requests := s.link.requests ++ [{ kind := kind, body := body, busy := [] }] } })) ∧
    (∀ front last, s.link.requests = front ++ [last] → 4 ≤ s.link.requests.length → s.link.busyHeld < 3 →
      exec (.checkedFrame chars) s = .next (sendIfIdle { s with
        cause := false
        link := { s.link with
          rx := rx
          requests := front ++ [{ last with
            busy := last.busy ++ [{ kind := replyKind kind, body := [8], isReset := false }] }] } })) ∧
    (4 ≤ s.link.requests.length → 3 ≤ s.link.busyHeld →
      exec (.checkedFrame chars) s = .next (sendIfIdle (linkFaulted s .overrun)))

/-- The receive faults: a length byte of 0 or above 200 is LENGTH, a wrong check is CHECK, a bad stop bit inside a frame
is STOP_BIT, and a frame whose next character is more than 5 ms late is TIMEOUT. Each records the cause with the frame
counter, raises Link Fault, drops the frame and returns the receiver to hunting; no request is queued and no reply
placed. Two faults of the characters of one command are two raises: with the transmitter free the first is sent at once,
and the second lists Link Fault anew. A character that is no good start byte, met hunting, is discarded without a fault. A character with a bad stop bit
that is also a wrong length or check is STOP_BIT (the model's choice, log 49). -/
def Obligations.ReceiveFaults : Prop :=
  ∀ s : State,
    (∀ c : LineChar, s.link.rx.state = .hunting → (c.stop = false ∨ c.byte ≠ 0xA5) →
      exec (.receiveFault [c]) s = .next (sendIfIdle { s with
        cause := false, link := { s.link with rx := { state := .hunting, lastAt := s.now } } })) ∧
    (∀ n : Byte, s.link.rx.state = .hunting → (n = 0 ∨ 200 < n.toNat) →
      exec (.receiveFault (goodChars [0xA5, n])) s = .next (sendIfIdle (linkFaulted s .length))) ∧
    (∀ m n : Byte, s.link.rx.state = .hunting → (m = 0 ∨ 200 < m.toNat) → (n = 0 ∨ 200 < n.toNat) →
      exec (.receiveFault (goodChars [0xA5, m, 0xA5, n])) s =
        .next (sendIfIdle (linkFaulted (sendIfIdle (linkFaulted s .length)) .length))) ∧
    (∀ (kind : Byte) (body : List Byte) (check : Byte), s.link.rx.state = .hunting → body.length ≤ 199 →
      check ≠ crc8 (byte (body.length + 1) :: kind :: body) →
      exec (.receiveFault (goodChars (0xA5 :: byte (body.length + 1) :: kind :: body ++ [check]))) s =
        .next (sendIfIdle (linkFaulted s .check))) ∧
    (∀ b : Byte, s.link.rx.state ≠ .hunting → s.now ≤ s.link.rx.lastAt + 5000 →
      exec (.receiveFault [{ byte := b, stop := false }]) s = .next (sendIfIdle (linkFaulted s .stopBit))) ∧
    (s.link.rx.state ≠ .hunting → s.link.rx.lastAt + 5000 < s.now →
      exec .frameTimeout s = .next (sendIfIdle { s with
        cause := false
        link := LinkController.raise { s.link with
          rx := { s.link.rx with state := .hunting }, lastError := some (.timeout, s.clock.counter) } .linkFault })) ∧
    (s.link.rx.state = .hunting ∨ s.now ≤ s.link.rx.lastAt + 5000 →
      exec .frameTimeout s = .next (sendIfIdle { s with cause := false }))

/-- A frame whose kind names no request is answered Unknown with kind 0xFF, and a request whose body has not the length
its kind calls for is answered Malformed: the reply and the Busy replies attached join the reply queue, the request
leaves its queue, and nothing else changes. -/
def Obligations.UnknownAndMalformed : Prop :=
  ∀ (s : State) (r : Request) (rest : List Request), s.link.requests = r :: rest → s.canTake = true →
    (knownRequest r.kind = false →
      exec .unknownRequest s = .next (sendIfIdle { s with
        cause := false
        link := { s.link with
          requests := rest
          replies := s.link.replies ++ { kind := 0xFF, body := [12], isReset := false } :: r.busy } })) ∧
    (knownRequest r.kind = true → requestLength r.kind.toNat r.body ≠ some r.body.length →
      exec (requestCommand r) s = .next (sendIfIdle { s with
        cause := false
        link := { s.link with
          requests := rest
          replies := s.link.replies ++ { kind := r.kind + 0x80, body := [1], isReset := false } :: r.busy } }))

/-- The transmitter falls free and takes the reply at the head of the reply queue; with no reply waiting, the oldest
notice, which leaves its list and whose body is sampled now; with neither, nothing. Only the expired set of the cue timers
changes by being sampled. -/
def Sys2Proof.Claims.TransmitterChoice : Prop :=
  ∀ s : State,
    (∀ r rest, s.link.replies = r :: rest →
      transmitNext s = { s with link := { s.link with sending := some r, replies := rest } }) ∧
    (∀ n rest, s.link.replies = [] → s.link.notices = n :: rest →
      transmitNext s = { s with
        link := { s.link with
          sending := some { kind := n.code, body := noticeBody n s, isReset := false }, notices := rest }
        cues := if n = .timerExpired then { s.cues with expired := 0 } else s.cues }) ∧
    (s.link.replies = [] → s.link.notices = [] →
      transmitNext s = { s with link := { s.link with sending := none } }) ∧
    (s.link.sendsReset = false → exec .transmitNext s = .next (transmitNext { s with cause := false }))

/-- A transmitter that sends nothing sends the first notice listed or reply placed at once, as the step that listed or
placed it ends, and while a frame is being sent nothing more happens. So a Halt served while the transmitter waits sends
its Scroll Halted first, and the Done behind it. That a body is sampled as the step ends, so that what one step raises twice
is one notice, is the model's choice (log 41). -/
def Sys2Proof.Claims.SentAtOnce : Prop :=
  ∀ s : State,
    (s.link.sending ≠ none → sendIfIdle s = s) ∧
    (s.link.sending = none →
      (∀ n rest, s.link.notices = n :: rest →
        sendIfIdle s = { s with
          link := { s.link with
            sending := some { kind := n.code, body := noticeBody n s, isReset := false }, notices := rest }
          cues := if n = .timerExpired then { s.cues with expired := 0 } else s.cues }) ∧
      (∀ r rest, s.link.notices = [] → s.link.replies = r :: rest →
        sendIfIdle s = { s with link := { s.link with sending := some r, replies := rest } }) ∧
      (s.link.notices = [] → s.link.replies = [] → sendIfIdle s = s)) ∧
    (Serving s 0x32 [] → s.link.sending = none → s.link.notices = [] → s.link.replies = [] →
      s.engine.motion ≠ .halted → (Notice.scrollHalted).enabledBy s.link.mask = true →
      ∃ t, exec .halt s = .next t ∧ t.link.notices = [] ∧
        t.link.replies = placed s .done [] false ∧
        t.link.sending = some { kind := 0xE0, isReset := false, body := 1 :: twoOf s.clock.counter ++
          (match s.engine.live with
           | some p => 1 :: placeBytes s.script p.block ++ [byte p.sub]
           | none => [0, 0, 0, 0, 0]) })

/-- A step that was due before another, and that the other's command carries out first, is as its own command is, and the
transmitter has its turn after each: the characters of one command after those before them; a fault SILENT that the last
poll left due before a further event of the port; an expiry that the last frame start left due before the next frame start;
the reports that wait before a further event of the Scroll Engine. So what two steps raise is raised twice: a transmitter
that waits sends the first notice at once, and the second step lists its kind anew. That these steps come first is the
model's choice (logs 8 and 10), and so is the end of the step as the moment of the sampling (log 41). -/
def Sys2Proof.Claims.StepsInTurn : Prop :=
  ∀ (s t : State), (s.link.sending = none → s.link.replies = [] ∧ s.link.notices = []) →
    (∀ front back, front ≠ [] → exec (.receiveFault front) s = .next t →
      exec (.receiveFault (front ++ back)) s = exec (.receiveFault back) t ∧
      exec (.checkedFrame (front ++ back)) s = exec (.checkedFrame back) t) ∧
    (∀ (p : PortNo) (chars : List LineChar), exec (.silenceFault p) s = .next t →
      ∀ c ∈ [Instr.presenceFound p, .presenceLost p, .holdOffEnd p, .overcurrent p, .poll p, .hello p chars,
        .dataReport p chars], exec c s = exec c t) ∧
    (∀ n x rest, CueInv s.cues → s.cues.expiring.head? = some n →
      s.mail.cueFrames = { req := false, body := x } :: rest → exec (.timerExpiry n) s = .next t →
      exec .cueFrameStart s = exec .cueFrameStart t) ∧
    (s.mail.engineReports ≠ [] → t = sendIfIdle ((takeReports s).withCause false) →
      (s.mail.engineFrames ≠ [] → exec .frameAdvance s = exec .frameAdvance t) ∧
      (s.mail.engineStops ≠ [] → exec .stopExpiryAction s = exec .stopExpiryAction t) ∧
      (∀ m rest, s.mail.engineInput = m :: rest →
        let c : Instr := match m.body with
          | .setTarget _ => .setTarget
          | .key => .startStopKey
          | .jog _ => .jog
        exec c s = exec c t))

/-- The thirteen notices: the code of each, and its body, sampled from its owner as 11.5 lays it out. The slot and line of a
live position whose block no line list holds are free values (the model's choice, log 51). -/
def Sys2Proof.Claims.NoticeBodies : Prop :=
  ∀ s : State,
    let a := s.arbiter
    let waiting := a.joined.filter (fun p => a.classes[p] = .operator) ++
      a.joined.filter (fun p => a.classes[p] = .presenter)
    let places (b : Nat) : List Byte := match s.script.locate b with
      | some (k, i) => byte k.val :: two i
      | none => Config.noPlaceSlot :: twoOf Config.noPlaceLine
    let slot (k : Option Slot) : Byte := match k with
      | some k => byte k.val
      | none => 0xFF
    (Notice.code .scrollHalted = 0xE0 ∧ noticeBody .scrollHalted s =
      s.engine.haltCause.code :: twoOf s.engine.haltFrame ++
        (match s.engine.live with
         | some p => 1 :: places p.block ++ [byte p.sub]
         | none => [0, 0, 0, 0, 0])) ∧
    (Notice.code .driveChanged = 0xE1 ∧ noticeBody .driveChanged s =
      ([match a.holder with
        | some (.port p) => byte p.val
        | some .desk => 4
        | none => 0xFF,
       match a.holder with
        | some (.port p) => (match a.classes[p] with | .operator => 0 | .presenter => 1)
        | some .desk => 2
        | none => 0xFF,
       match a.mode with | .operatorOnly => 0 | .presenterOnly => 1 | .operatorFirst => 2 | .equal => 3,
       match a.pin with | some p => byte p.val | none => 0xFF,
       byte waiting.length] : List Byte) ++ waiting.map (fun p => byte p.val)) ∧
    (Notice.code .portChanged = 0xE2 ∧ noticeBody .portChanged s =
      [(0 : PortNo), 1, 2, 3].flatMap (fun p =>
        let q := s.ports[p]
        ([match q.state with | .detached => 0 | .identifying => 1 | .attached => 2 | .enabled => 3 | .faulted => 4,
         match q.fault with | none => 0 | some .supply => 1 | some .silent => 2,
         match q.kind with | none => 0 | some .wheel => 1 | some .strip => 2 | some .pedal => 3,
         byte (q.connectChange.toNat + 2 * q.enableChange.toNat + 4 * q.faultChange.toNat)] : List Byte))) ∧
    (Notice.code .cueFired = 0xE3 ∧ noticeBody .cueFired s =
      (match s.cues.lastFired with
       | some x => [1, byte x.slot.val] ++ two x.line ++ [x.kind.code, byte x.param] ++ twoOf x.frame
       | none => [0, 0, 0, 0, 0, 0, 0, 0])) ∧
    (Notice.code .timerExpired = 0xE4 ∧ noticeBody .timerExpired s = [s.cues.expired]) ∧
    (Notice.code .editFault = 0xE5 ∧ noticeBody .editFault s =
      (match s.script.fault with
       | some x => [1, byte (x.causes.fixed.toNat + 2 * x.causes.closed.toNat + 4 * x.causes.limit.toNat +
           8 * x.causes.storeFull.toNat), x.kind.code, byte x.slot.val] ++ two x.line ++ twoOf x.frame
       | none => [0, 0, 0, 0, 0, 0, 0, 0])) ∧
    (Notice.code .editWatch = 0xE6 ∧ noticeBody .editWatch s =
      (match s.script.watch with
       | some x => [1, x.kind.code, byte x.slot.val] ++ two x.line ++ [sbyte x.change] ++ twoOf x.frame
       | none => [0, 0, 0, 0, 0, 0, 0, 0])) ∧
    (Notice.code .storyAired = 0xE7 ∧ noticeBody .storyAired s = [slot s.script.lastAired]) ∧
    (Notice.code .changedAfterAir = 0xE8 ∧ noticeBody .changedAfterAir s = [slot s.script.lastChanged]) ∧
    (Notice.code .reference = 0xE9 ∧ noticeBody .reference s =
      ([match s.clock.event with | none => 0 | some .found => 1 | some .lost => 2,
       match s.clock.lock with | .free => 0 | .hunting => 1 | .locked => 2 | .lost => 3,
       match s.clock.mode with | .free => 0 | .lock => 1] : List Byte) ++ twoOf s.clock.counter) ∧
    (Notice.code .storeLow = 0xEA ∧ noticeBody .storeLow s = two s.store.pool.length ++ two s.store.threshold) ∧
    (Notice.code .linkFault = 0xEB ∧ noticeBody .linkFault s =
      (match s.link.lastError with
       | none => [0, 0, 0]
       | some (c, frame) =>
         (match c with
          | .check => 1 | .stopBit => 2 | .timeout => 3 | .length => 4 | .overrun => 5) :: twoOf frame)) ∧
    (Notice.code .headChanged = 0xEC ∧ noticeBody .headChanged s =
      [byte (s.heads[0].up.toNat + 2 * s.heads[1].up.toNat + 4 * s.heads[2].up.toNat + 8 * s.heads[3].up.toNat)])

/-- What the transmitter sends, when, and with which bodies. -/
def Obligations.Transmission : Prop :=
  Claims.TransmitterChoice ∧ Claims.SentAtOnce ∧ Claims.StepsInTurn ∧ Claims.NoticeBodies

/-- A raise of an enabled kind that is not pending adds it at the tail of the notice list; a raise of a kind pending or
masked off changes nothing. -/
def Sys2Proof.Claims.NoticeRaised : Prop :=
  ∀ (n : Notice) (s : State),
    (n.enabledBy s.link.mask = true → n ∉ s.link.notices →
      raise n s = { s with link := { s.link with notices := s.link.notices ++ [n] } }) ∧
    (n.enabledBy s.link.mask = false ∨ n ∈ s.link.notices → raise n s = s)

/-- Set Notices: the mask is replaced, pending kinds it turns off are removed, the threshold is set, and the re-arm and
Store Low tests follow, a Store Low being listed under the new mask. -/
def Sys2Proof.Claims.SetNotices : Prop :=
  ∀ (s : State) (body : List Byte), Serving s 0x71 body →
    let mask := u16 body 0
    let threshold := u16 body 2
    let free := s.store.pool.length
    (8192 < threshold ∨ 0x1FFF < mask → exec .setNotices s = .next (refused s .range)) ∧
    (threshold ≤ 8192 → mask ≤ 0x1FFF →
      let t := { s with
        link := { s.link with
          mask := BitVec.ofNat 16 mask
          notices := s.link.notices.filter (fun n => n.enabledBy (BitVec.ofNat 16 mask)) }
        store := { s.store with
          threshold := threshold
          armed := if s.store.armed then decide (threshold ≤ free) else decide (min (threshold + 64) 8192 ≤ free) } }
      exec .setNotices s =
        .next (answered s .done [] (if s.store.armed = true ∧ free < threshold then raise .storeLow t else t)))

/-- How a raise changes the notice list, and what Set Notices changes. -/
def Obligations.NoticeListAndMask : Prop :=
  Claims.NoticeRaised ∧ Claims.SetNotices

/-- Identify: part code, revision, sizes, rate, mask and last link error; no state changes; a body that is not empty is
Malformed. -/
def Obligations.IdentifyReply : Prop :=
  ∀ s : State,
    (Serving s 0x70 [] →
      exec .identify s = .next (answered s .done
        ([0x36, 0x20, 2, 0x20, 0x00, 64, 4, 4, 6, BitVec.ofNat 8 s.link.rate] ++ twoOf s.link.mask ++
          (match s.link.lastError with
           | none => [0, 0, 0]
           | some (c, frame) =>
             (match c with
              | .check => 1 | .stopBit => 2 | .timeout => 3 | .length => 4 | .overrun => 5) :: twoOf frame)) s)) ∧
    (∀ r rest, s.link.requests = r :: rest → r.kind = 0x70 → r.body ≠ [] → s.canTake = true →
      exec .identify s = .next (refused s .malformed))

/-! ### Frames and invariants -/

/-- A command changes only the parts that the rules let it change, and none but the transmitter's own and a reset ends the
transmission of a frame.
What an event does of its block's waiting work first is the model's choice (logs 8 and 10). -/
def Obligations.CommandsTouchOnlyTheirParts : Prop :=
  ∀ (c : Instr) (s t : State), LinkInv s.link → exec c s = .next t → Same (touches c) s t

/-- Every step keeps each block in one place, its record held exactly while it is in use, and the facts of the script
descriptors. -/
def Obligations.ScriptAndStoreKept : Prop := Kept (fun s => StoreInv s ∧ ScriptInv s.script)

/-- Every step keeps the facts of the Scroll Engine: what each motion state says of velocity and target. -/
def Sys2Proof.Claims.EngineFactsKept : Prop := Kept (fun s => EngineInv s.engine)

/-- Every step keeps the live position in place, given that it keeps the store and the script: once the reports that wait
are taken, it is VOID exactly when no story is eligible, and otherwise lies in the line list of the eligible story that it
designates. -/
def Sys2Proof.Claims.LivePositionKept : Prop := Kept (fun s => StoreInv s ∧ ScriptInv s.script ∧ LiveInv s)

/-- Every step keeps the facts of the Scroll Engine, and its live position in place. -/
def Obligations.EngineKept : Prop :=
  Claims.EngineFactsKept ∧ Claims.LivePositionKept

/-- Every step keeps the facts of the Drive Arbiter: who can hold and wait, and what the drive states say. -/
def Obligations.ArbiterKept : Prop := Kept (fun s => ArbiterInv s.arbiter)

/-- Every step keeps the facts of the control ports: supply, kind, fault and hold-off as the port states say. -/
def Obligations.PortsKept : Prop := Kept (fun s => ∀ p : PortNo, PortInv s.ports[p])

/-- Every step keeps the facts of the Cue Monitor. -/
def Sys2Proof.Claims.CuesKept : Prop := Kept (fun s => CueInv s.cues)

/-- Every step keeps the facts of the Frame Clock. -/
def Sys2Proof.Claims.ClockKept : Prop := Kept (fun s => ClockInv s.clock)

/-- Every step keeps the facts of the Cue Monitor, and those of the Frame Clock. -/
def Obligations.CuesAndClockKept : Prop :=
  Claims.CuesKept ∧ Claims.ClockKept

/-- Every step keeps the facts of the Head Links. -/
def Sys2Proof.Claims.HeadsKept : Prop := Kept (fun s => ∀ h : HeadNo, HeadInv s.heads[h])

/-- Every step keeps the depths of the queues of the Link Controller and the form of its notice list. -/
def Sys2Proof.Claims.LinkKept : Prop := Kept (fun s => LinkInv s.link)

/-- Every step keeps the facts of the Head Links, and those of the Link Controller. -/
def Obligations.HeadsAndLinkKept : Prop :=
  Claims.HeadsKept ∧ Claims.LinkKept

/-! ### The Text Store's requests (R3 to R12) -/

/-- Take Block, Return Run and Rewrite Block on the store: the pool, the record, the generation and the arming of the
block they name; every other block reads as before. -/
def Obligations.StoreRequests : Prop :=
  ∀ s : State, BlocksWf s.store.blocks →
    (∀ r, s.store.pool = [] → takeBlock r s = none) ∧
    (∀ r n rest, s.store.pool = n :: rest → ∃ t, takeBlock r s = some (n, t) ∧
      t.store.pool = rest ∧ t.store.threshold = s.store.threshold ∧
      t.store.armed = (s.store.armed && decide (s.store.threshold ≤ rest.length)) ∧
      t.link = (if s.store.armed = true ∧ rest.length < s.store.threshold then s.link.raise .storeLow else s.link) ∧
      ∀ m, t.store.read m = if m = n then { gen := (s.store.read n).gen, record := some r } else s.store.read m) ∧
    (∀ run : List Nat, run.Nodup →
      (returnRun run s).store.pool = s.store.pool ++ run ∧
      (returnRun run s).store.threshold = s.store.threshold ∧
      (returnRun run s).store.armed = (s.store.armed ||
        decide (min (s.store.threshold + 64) 8192 ≤ s.store.pool.length + run.length)) ∧
      (returnRun run s).link = s.link ∧
      ∀ m, (returnRun run s).store.read m =
        if m ∈ run then { gen := (s.store.read m).gen + 1, record := none } else s.store.read m) ∧
    (∀ n r, (rewriteBlock n r s).store.pool = s.store.pool ∧ (rewriteBlock n r s).store.armed = s.store.armed ∧
      (rewriteBlock n r s).store.threshold = s.store.threshold ∧ (rewriteBlock n r s).link = s.link ∧
      ∀ m, (rewriteBlock n r s).store.read m =
        if m = n then { gen := (s.store.read n).gen + 1, record := some r } else s.store.read m)

/-- Whatever a command does, every block but those it writes reads as before: an append or an insert writes the block
at the head of the pool, a replace the block of its line, a delete, a free and an abandon the blocks of their runs, and
every other command but a reset no block at all. -/
def Obligations.OtherBlocksKept : Prop :=
  ∀ (c : Instr) (s t : State), exec c s = .next t → c ≠ .resetTakesEffect → (∀ a b, c ≠ .powerOnReset a b) →
    ∀ n, n ∉ writtenBlocks c s → t.store.read n = s.store.read n

/-! ### Stories, the load and the running order (R24 to R38) -/

/-- Open Story: the checks in their order, then the descriptor as written and the open load. -/
def Sys2Proof.Claims.OpenStory : Prop :=
  ∀ (s : State) (body : List Byte), Serving s 0x10 body →
    (64 ≤ u8 body 0 ∨ Access.ofCode (u8 body 3) = none ∨ u16 body 1 = 0 ∨ 1023 < u16 body 1 ∨
        16 < u8 body 4 ∨ (slugOf body).all isTextCode = false →
      exec .openStory s = .next (refused s .range)) ∧
    (∀ (k : Slot) access, u8 body 0 = k.val → Access.ofCode (u8 body 3) = some access → 1 ≤ u16 body 1 →
      u16 body 1 ≤ 1023 → u8 body 4 ≤ 16 → (slugOf body).all isTextCode = true →
      (s.script.stories[k].state ≠ .free ∨ s.script.load ≠ none → exec .openStory s = .next (refused s .state)) ∧
      (s.script.stories[k].state = .free → s.script.load = none →
        exec .openStory s = .next (answered s .done [] (s.withScript { s.script.withStory k
          { state := .loading, access := access, limit := u16 body 1, lines := [], slug := slugOf body,
            aired := false, changed := false, airFrames := 0 } with load := some k }))))

/-- Check Record: at most 44 text codes in 0x20..0x7E and 0xA0..0xFF, one of the three styles, and a marker that is
absent, its kind and parameter then not looked at, or of one of the six kinds with a parameter its kind takes. Such a
record is stored as checked; any other is Range. The codes of a slug are the same. -/
def Sys2Proof.Claims.RecordChecked : Prop :=
  (∀ b : Byte, isTextCode b = true ↔ (0x20 ≤ b.toNat ∧ b.toNat ≤ 0x7E) ∨ 0xA0 ≤ b.toNat) ∧
  (∀ body : List Byte, slugOf body = body.drop 5) ∧
  ∀ bytes : List Byte,
    let count := u8 bytes 0
    let text := (bytes.drop 1).take count
    let style := u8 bytes (count + 1)
    let present := u8 bytes (count + 2)
    let kind := u8 bytes (count + 3)
    let param := u8 bytes (count + 4)
    let textOk := count ≤ 44 ∧ (∀ b ∈ text, (0x20 ≤ b.toNat ∧ b.toNat ≤ 0x7E) ∨ 0xA0 ≤ b.toNat) ∧ style ≤ 2
    let markerOk := present = 0 ∨ (present = 1 ∧
      (kind = 0 ∨ kind = 1 ∨ ((kind = 2 ∨ kind = 3) ∧ param ≤ 5) ∨ ((kind = 4 ∨ kind = 5) ∧ 1 ≤ param)))
    (¬(textOk ∧ markerOk) → checkRecord bytes = none) ∧
    (textOk → markerOk → checkRecord bytes = some
      { text := text
        style := if style = 0 then .spoken else if style = 1 then .emphasis else .direction
        marker := if present = 0 then none else some
          { param := param
            kind := if kind = 0 then .pause else if kind = 1 then .note else if kind = 2 then .timerStart
              else if kind = 3 then .timerStop else if kind = 4 then .lamp else .headFlag } })

/-- Append Line: Range, State, Limit and Store Full in that order; otherwise the block at the head of the pool takes
the record and joins the end of the line list of the open load. -/
def Sys2Proof.Claims.AppendLine : Prop :=
  ∀ (s : State) (body : List Byte), Serving s 0x11 body →
    (checkRecord body = none → exec .appendLine s = .next (refused s .range)) ∧
    (∀ r, checkRecord body = some r →
      (s.script.load = none → exec .appendLine s = .next (refused s .state)) ∧
      (∀ k, s.script.load = some k →
        (s.script.stories[k].lines.length = s.script.stories[k].limit →
          exec .appendLine s = .next (refused s .limit)) ∧
        (s.script.stories[k].lines.length ≠ s.script.stories[k].limit → s.store.pool = [] →
          exec .appendLine s = .next (refused s .storeFull)) ∧
        (∀ n rest, s.script.stories[k].lines.length ≠ s.script.stories[k].limit → s.store.pool = n :: rest →
          exec .appendLine s = .next (answered s .done [] ((blockTaken s n rest r).withScript
            (s.script.withStory k { s.script.stories[k] with lines := s.script.stories[k].lines ++ [n] }))))))

/-- Open Story, the check of a line record, and Append Line. -/
def Obligations.OpenAndAppend : Prop :=
  Claims.OpenStory ∧ Claims.RecordChecked ∧ Claims.AppendLine

/-- Close Story with commit: the story of the open load becomes READY, and the reports its entry calls for go out. A
mode code that names neither mode is Range, and State follows with no load open.
Which of the two rows refuses such a body is the model's choice (log 25). -/
def Sys2Proof.Claims.CloseStoryCommit : Prop :=
  ∀ (s : State) (mode : Byte), Serving s 0x12 [mode] → ScriptInv s.script →
    (1 < mode.toNat → exec .closeStoryCommit s = .next (refused s .range)) ∧
    (mode = 0 → s.script.load = none → exec .closeStoryCommit s = .next (refused s .state)) ∧
    (∀ k, mode = 0 → s.script.load = some k →
      exec .closeStoryCommit s = .next (answered s .done []
        (sendReports
          (if { slot := k, floated := false } ∈ s.script.order ∧ s.script.stories[k].access ≠ .closed then
            if s.script.stories[k].lines = [] then [.orderChanged] else [.eligible k, .orderChanged]
          else [])
          ((s.withCause true).withScript
            { s.script.withStory k { s.script.stories[k] with state := .ready } with load := none }))))

/-- Close Story with abandon: every block of the load is returned in line order, the slot takes its FREE values, an
entry it had is removed, and an order changed report goes out if one was. -/
def Sys2Proof.Claims.CloseStoryAbandon : Prop :=
  ∀ s : State, Serving s 0x12 [1] → ScriptInv s.script →
    (s.script.load = none → exec .closeStoryAbandon s = .next (refused s .state)) ∧
    (∀ k, s.script.load = some k →
      exec .closeStoryAbandon s = .next (answered s .done []
        (sendReports (if ∃ e ∈ s.script.order, e.slot = k then [.orderChanged] else [])
          ((returnRun s.script.stories[k].lines (s.withCause true)).withScript
            { s.script.withStory k Story.free with
              load := none, order := s.script.order.filter (fun e => e.slot ≠ k) }))))

/-- Close Story, with commit and with abandon. -/
def Obligations.CloseStory : Prop :=
  Claims.CloseStoryCommit ∧ Claims.CloseStoryAbandon

/-- Free Story: the checks in their order; a spare READY story gives its blocks back in line order, with a delete
report for a story with lines, and takes its FREE values. -/
def Sys2Proof.Claims.FreeStory : Prop :=
  ∀ (s : State) (body : List Byte), Serving s 0x13 body →
    (64 ≤ u8 body 0 → exec .freeStory s = .next (refused s .range)) ∧
    (∀ k : Slot, u8 body 0 = k.val →
      (s.script.stories[k].state = .free → exec .freeStory s = .next (refused s .noStory)) ∧
      (s.script.stories[k].state = .loading → exec .freeStory s = .next (refused s .state)) ∧
      (s.script.stories[k].state = .ready → (∃ e ∈ s.script.order, e.slot = k) →
        exec .freeStory s = .next (refused s .inOrder)) ∧
      (s.script.stories[k].state = .ready → (∀ e ∈ s.script.order, e.slot ≠ k) →
        exec .freeStory s = .next (answered s .done []
          (sendReports
            (if s.script.stories[k].lines = [] then [] else [.delete k 0 s.script.stories[k].lines])
            ((returnRun s.script.stories[k].lines (s.withCause true)).withScript
              (s.script.withStory k Story.free))))))

/-- The Live Slot check that follows a Set Story: the Scroll Engine, having taken the reports that wait, answers with the
slot whose line list holds its live position. Where that is the slot written, and its story is READY and not aired, the
story is aired, it becomes the last aired, and Story Aired is raised; otherwise nothing follows.
That the engine takes the reports before it answers is the model's reading (log 9). -/
def Sys2Proof.Claims.LiveSlotChecked : Prop :=
  ∀ (s : State) (k : Slot),
    let t := takeReports s
    let y := t.script.stories[k]
    (∀ p i, t.engine.live = some p → t.script.locate p.block = some (k, i) →
      (y.state = .ready → y.aired = false → liveSlotCheck k s = raise .storyAired (t.withScript
        { t.script.withStory k { y with aired := true } with lastAired := some k })) ∧
      (y.state ≠ .ready ∨ y.aired = true → liveSlotCheck k s = t)) ∧
    ((∀ p i, t.engine.live = some p → t.script.locate p.block ≠ some (k, i)) → liveSlotCheck k s = t)

/-- Set Story: the checks in their order; a READY story keeps its lines and takes the access, limit and slug, its flags
and air frames cleared. A story whose entry changes between gap and eligible or passed sends the reports of the change,
and the Live Slot check follows, by which a story that holds the live position once the engine has taken them is aired
again.
That the engine takes the reports before it answers Live Slot is the model's reading (log 9). -/
def Sys2Proof.Claims.SetStory : Prop :=
  ∀ (s : State) (body : List Byte), Serving s 0x14 body → ScriptInv s.script →
    (64 ≤ u8 body 0 → exec .setStory s = .next (refused s .range)) ∧
    (∀ k : Slot, u8 body 0 = k.val →
      let y := s.script.stories[k]
      (Access.ofCode (u8 body 1) = none ∨ u16 body 2 = 0 ∨ 1023 < u16 body 2 ∨ u16 body 2 < y.lines.length ∨
          16 < u8 body 4 ∨ (slugOf body).all isTextCode = false →
        exec .setStory s = .next (refused s .range)) ∧
      (∀ access, Access.ofCode (u8 body 1) = some access → 1 ≤ u16 body 2 → u16 body 2 ≤ 1023 →
        y.lines.length ≤ u16 body 2 → u8 body 4 ≤ 16 → (slugOf body).all isTextCode = true →
        (y.state = .free → exec .setStory s = .next (refused s .noStory)) ∧
        (y.state = .loading → exec .setStory s = .next (refused s .state)) ∧
        (y.state = .ready →
          exec .setStory s = .next (answered s .done []
            (liveSlotCheck k (sendReports
              (if { slot := k, floated := false } ∈ s.script.order ∧ ¬(y.access = .closed ↔ access = .closed) then
                if y.lines = [] then [.orderChanged]
                else if access = .closed then
                  [.ineligible k (s.script.order.findIdx (fun e => e.slot = k)), .orderChanged]
                else [.eligible k, .orderChanged]
              else [])
              ((s.withCause true).withScript (s.script.withStory k
                { y with access := access, limit := u16 body 2, slug := slugOf body,
                         aired := false, changed := false, airFrames := 0 }))))))))

/-- Free Story, Set Story and the Live Slot check that follows it. -/
def Obligations.FreeAndSetStory : Prop :=
  Claims.FreeStory ∧ Claims.LiveSlotChecked ∧ Claims.SetStory

/-- Place Entry, Move Entry, Remove Entry and Float Entry: the checks in their order, the running order after each, and
the reports in their order. -/
def Obligations.OrderRequests : Prop :=
  ∀ (s : State) (body : List Byte), ScriptInv s.script →
    (Serving s 0x20 body → ∀ i, i = u8 body 1 →
      (64 ≤ u8 body 0 ∨ s.script.order.length < i → exec .placeEntry s = .next (refused s .range)) ∧
      (∀ k : Slot, u8 body 0 = k.val → i ≤ s.script.order.length →
        (s.script.stories[k].state = .free → exec .placeEntry s = .next (refused s .noStory)) ∧
        (s.script.stories[k].state ≠ .free → (∃ e ∈ s.script.order, e.slot = k) →
          exec .placeEntry s = .next (refused s .inOrder)) ∧
        (s.script.stories[k].state ≠ .free → (∀ e ∈ s.script.order, e.slot ≠ k) →
          exec .placeEntry s = .next (answered s .done []
            (sendReports
              (if s.script.stories[k].state = .ready ∧ s.script.stories[k].access ≠ .closed ∧
                  s.script.stories[k].lines ≠ [] then [.eligible k, .orderChanged] else [.orderChanged])
              ((s.withCause true).withScript { s.script with
                order := s.script.order.take i ++ { slot := k, floated := false } :: s.script.order.drop i })))))) ∧
    (Serving s 0x21 body → ∀ i j, i = u8 body 0 → j = u8 body 1 →
      (s.script.order.length ≤ i ∨ s.script.order.length ≤ j → exec .moveEntry s = .next (refused s .range)) ∧
      (∀ e, s.script.order[i]? = some e → j < s.script.order.length →
        exec .moveEntry s = .next (answered s .done []
          (if i = j then s
          else sendReports [.orderChanged] ((s.withCause true).withScript { s.script with
            order := (s.script.order.eraseIdx i).take j ++ e :: (s.script.order.eraseIdx i).drop j }))))) ∧
    (Serving s 0x22 body → ∀ i, i = u8 body 0 →
      (s.script.order.length ≤ i → exec .removeEntry s = .next (refused s .range)) ∧
      (∀ e, s.script.order[i]? = some e →
        exec .removeEntry s = .next (answered s .done []
          (sendReports
            (if s.script.standing e = .eligible then [.ineligible e.slot i, .orderChanged] else [.orderChanged])
            ((s.withCause true).withScript { s.script with order := s.script.order.eraseIdx i }))))) ∧
    (Serving s 0x23 body → ∀ i, i = u8 body 0 →
      (s.script.order.length ≤ i ∨ 1 < u8 body 1 → exec .floatEntry s = .next (refused s .range)) ∧
      (∀ e, s.script.order[i]? = some e → u8 body 1 ≤ 1 →
        (u8 body 1 = e.floated.toNat → exec .floatEntry s = .next (answered s .done [] s)) ∧
        (u8 body 1 = 1 → e.floated = false →
          exec .floatEntry s = .next (answered s .done []
            (sendReports
              (if s.script.standing e = .eligible then [.ineligible e.slot i, .orderChanged] else [.orderChanged])
              ((s.withCause true).withScript { s.script with
                order := s.script.order.set i { e with floated := true } })))) ∧
        (u8 body 1 = 0 → e.floated = true →
          exec .floatEntry s = .next (answered s .done []
            (sendReports
              (if s.script.standing { e with floated := false } = .eligible then [.eligible e.slot, .orderChanged]
               else [.orderChanged])
              ((s.withCause true).withScript { s.script with
                order := s.script.order.set i { e with floated := false } }))))))

/-- Query Store: the free count, the low threshold and the line count of the open load, 0 with none open. A body that
is not empty is Malformed. No state changes but the queues. -/
def Obligations.QueryStore : Prop :=
  ∀ s : State,
    (Serving s 0x16 [] →
      exec .queryStore s = .next (answered s .done
        (two s.store.pool.length ++ two s.store.threshold ++
          two (match s.script.load with | some k => s.script.stories[k].lines.length | none => 0)) s)) ∧
    (∀ r rest, s.link.requests = r :: rest → r.kind = 0x16 → r.body ≠ [] → s.canTake = true →
      exec .queryStore s = .next (refused s .malformed))

/-- Query Story and Query Order: the descriptor with its entry, and the running order with standings and the three
slots. Without an entry the three bytes of the entry are free values (the model's choice, log 16); the order of the
fields follows the spec's list of them (log 15). -/
def Sys2Proof.Claims.StoryQueries : Prop :=
  ∀ s : State,
    (∀ body, Serving s 0x15 body → (64 ≤ u8 body 0 → exec .queryStory s = .next (refused s .range)) ∧
      (∀ k : Slot, u8 body 0 = k.val →
        let y := s.script.stories[k]
        let head := [y.state.code, y.access.code] ++ two y.limit ++ two y.lines.length ++ byte y.slug.length :: y.slug
          ++ [flagByte y.aired, flagByte y.changed] ++ two y.airFrames
        (∀ i e, s.script.order[i]? = some e → e.slot = k → (s.script.order.map (·.slot)).Nodup →
          exec .queryStory s =
            .next (answered s .done (head ++ [byte i, flagByte e.floated, (s.script.standing e).code]) s)) ∧
        ((∀ e ∈ s.script.order, e.slot ≠ k) →
          exec .queryStory s = .next (answered s .done
            (head ++ [Config.noEntryIndex, Config.noEntryFloated, Config.noEntryStanding]) s)))) ∧
    (Serving s 0x24 [] →
      exec .queryOrder s = .next (answered s .done
        (byte s.script.order.length ::
          s.script.order.flatMap (fun e => [byte e.slot.val, flagByte e.floated, (s.script.standing e).code]) ++
          [slotByte s.script.load, slotByte s.script.lastAired, slotByte s.script.lastChanged]) s))

/-- The Scroll Engine's reports at the Script Table: a READY story not yet aired is aired and named the last aired,
with Story Aired; a READY story gains an air frame, up to 65535; a story that is not READY, and an aired one, is left
as it is. -/
def Obligations.OnAirHistory : Prop :=
  ∀ (s : State) (req : Bool) (k : Slot) (rest : List (Msg ScriptMsg)),
    let t := { s with cause := false, mail := { s.mail with toScript := rest } }
    let y := s.script.stories[k]
    (s.mail.toScript = { req := req, body := .designation k } :: rest →
      (y.state = .ready → y.aired = false →
        exec .designationReport s = .next (sendIfIdle (raise .storyAired (t.withScript
          { s.script.withStory k { y with aired := true } with lastAired := some k })))) ∧
      (y.state ≠ .ready ∨ y.aired = true → exec .designationReport s = .next (sendIfIdle t))) ∧
    (s.mail.toScript = { req := req, body := .airFrame k } :: rest →
      (y.state = .ready →
        exec .airFrameReport s = .next (sendIfIdle (t.withScript
          (s.script.withStory k { y with airFrames := min (y.airFrames + 1) 65535 })))) ∧
      (y.state ≠ .ready → exec .airFrameReport s = .next (sendIfIdle t)))

/-! ### Editing on air (R43 to R62) -/

/-- An edit is refused: Range for a slot, a line or a count out of range and for a record that is not acceptable, then No
Story, then State, and then, on a READY story with a protection cause, the status of the cause. An aborted edit fills an
empty fault record with its cause set, kind, slot, line and frame and raises Edit Fault; a record that is frozen stays
as it is. -/
def Sys2Proof.Claims.EditRefused : Prop :=
  ∀ (s : State) (body : List Byte) (c : Instr) (kind : EditKind) (code : Byte),
    (c, kind, code) ∈ [(Instr.insertLine, EditKind.insert, (0x28 : Byte)), (.replaceLine, .replace, 0x29),
      (.deleteLines, .delete, 0x2A)] →
    Serving s code body →
    let line := u16 body 1
    let count := u8 body 3
    let badOperands := if kind = .delete then decide (count = 0 ∨ 32 < count) else (checkRecord (body.drop 3)).isNone
    (64 ≤ u8 body 0 ∨ badOperands = true → exec c s = .next (refused s .range)) ∧
    (∀ k : Slot, u8 body 0 = k.val → badOperands = false →
      let y := s.script.stories[k]
      let out := match kind with
        | .insert => decide (y.lines.length < line)
        | .replace => decide (y.lines.length ≤ line)
        | .delete => decide (y.lines.length < line + count)
      (y.state ≠ .free → out = true → exec c s = .next (refused s .range)) ∧
      (y.state = .free → exec c s = .next (refused s .noStory)) ∧
      (y.state = .loading → out = false → exec c s = .next (refused s .state)) ∧
      (y.state = .ready → out = false →
        let causes : Causes :=
          { fixed := y.access = .fixed, closed := y.access = .closed
            limit := kind = .insert && y.lines.length = y.limit
            storeFull := kind = .insert && s.store.pool.isEmpty }
        causes ≠ { fixed := false, closed := false, limit := false, storeFull := false } →
        let status := if causes.fixed ∨ causes.closed then Status.denied
          else if causes.limit then .limit else .storeFull
        (s.script.fault ≠ none → exec c s = .next (refused s status)) ∧
        (s.script.fault = none →
          exec c s = .next (answered s status [] (raise .editFault (s.withScript { s.script with
            fault := some { causes := causes, kind := kind, slot := k, line := line,
                            frame := s.clock.counter } }))))))

/-- What a completed edit notes, in this order: a story that is aired and not yet marked changed is marked, named the
last changed, with Changed After Air; on a WATCHED story the watch record is overwritten, with Edit Watch. -/
def Sys2Proof.Claims.EditNoted : Prop :=
  ∀ (s : State) (kind : EditKind) (k : Slot) (line : Nat) (change : Int),
    let y := s.script.stories[k]
    let t := if y.aired = true ∧ y.changed = false then
        raise .changedAfterAir (s.withScript
          { s.script.withStory k { y with changed := true } with lastChanged := some k })
      else s
    noteEdit kind k line change s =
      if y.access = .watched then
        raise .editWatch (t.withScript { t.script with
          watch := some { kind := kind, slot := k, line := line, change := change, frame := s.clock.counter } })
      else t

/-- A completed Insert Line: the block at the head of the pool takes the record and joins the line list before the line
named; the edit is noted; an insert report goes out, followed by story eligible and order changed where the story was
an unfloated entry without lines; the reply carries the new line count. -/
def Sys2Proof.Claims.InsertLine : Prop :=
  ∀ (s : State) (body : List Byte) (k : Slot) (r : LineRecord) (n : Nat) (rest : List Nat),
    Serving s 0x28 body → ScriptInv s.script → u8 body 0 = k.val → checkRecord (body.drop 3) = some r →
    let i := u16 body 1
    let y := s.script.stories[k]
    y.state = .ready → i ≤ y.lines.length → y.access = .opened ∨ y.access = .watched → y.lines.length < y.limit →
    s.store.pool = n :: rest →
    let t := noteEdit .insert k i 1 (blockTaken (s.withCause true) n rest r)
    exec .insertLine s = .next (answered s .done (two (y.lines.length + 1))
      (sendReports
        (if y.lines = [] ∧ { slot := k, floated := false } ∈ s.script.order then
          [.insert k i n, .eligible k, .orderChanged] else [.insert k i n])
        (t.withScript (t.script.withLines k (y.lines.take i ++ n :: y.lines.drop i)))))

/-- A completed Replace Line: the block of the line is rewritten in place; the edit is noted; no report goes out, and
Line Rewritten goes to the Cue Monitor. -/
def Sys2Proof.Claims.ReplaceLine : Prop :=
  ∀ (s : State) (body : List Byte) (k : Slot) (r : LineRecord) (n : Nat),
    Serving s 0x29 body → u8 body 0 = k.val → checkRecord (body.drop 3) = some r →
    let i := u16 body 1
    let y := s.script.stories[k]
    y.state = .ready → y.lines[i]? = some n → y.access = .opened ∨ y.access = .watched →
    exec .replaceLine s = .next (answered s .done []
      (sendRewritten k n (noteEdit .replace k i 0 (rewriteBlock n r (s.withCause true)))))

/-- A completed Delete Lines: the blocks of the run are returned in line order and leave the line list; the edit is
noted; a delete report goes out, followed by story ineligible and order changed where an eligible story has lost its last
line; the reply carries the new line count. -/
def Sys2Proof.Claims.DeleteLines : Prop :=
  ∀ (s : State) (body : List Byte) (k : Slot),
    Serving s 0x2A body → ScriptInv s.script → u8 body 0 = k.val →
    let first := u16 body 1
    let count := u8 body 3
    let y := s.script.stories[k]
    y.state = .ready → 1 ≤ count → count ≤ 32 → first + count ≤ y.lines.length →
    y.access = .opened ∨ y.access = .watched →
    let run := (y.lines.drop first).take count
    let t := noteEdit .delete k first (-(count : Int)) (returnRun run (s.withCause true))
    exec .deleteLines s = .next (answered s .done (two (y.lines.length - count))
      (sendReports
        (if y.lines.length = count ∧ { slot := k, floated := false } ∈ s.script.order then
          [.delete k first run, .ineligible k (s.script.order.findIdx (fun e => e.slot = k)), .orderChanged]
         else [.delete k first run])
        (t.withScript (t.script.withLines k (y.lines.take first ++ y.lines.drop (first + count))))))

/-- The three edits when they complete, and what a completed edit notes. -/
def Obligations.CompletedEdits : Prop :=
  Claims.EditNoted ∧ Claims.InsertLine ∧ Claims.ReplaceLine ∧ Claims.DeleteLines

/-- Read Line: the generation and the record of a line of a LOADING or READY story; Range for a slot or a line out of
range, No Story for a FREE slot. Nothing changes. -/
def Sys2Proof.Claims.ReadLine : Prop :=
  ∀ (s : State) (body : List Byte), Serving s 0x2B body →
    (64 ≤ u8 body 0 → exec .readLine s = .next (refused s .range)) ∧
    (∀ k : Slot, u8 body 0 = k.val →
      let y := s.script.stories[k]
      (y.state = .free → exec .readLine s = .next (refused s .noStory)) ∧
      (y.state ≠ .free → y.lines.length ≤ u16 body 1 → exec .readLine s = .next (refused s .range)) ∧
      (∀ n r, y.state ≠ .free → y.lines[u16 body 1]? = some n → (s.store.read n).record = some r →
        exec .readLine s = .next (answered s .done ((s.store.read n).gen :: recordBytes r) s)))

/-- Query Story, Query Order and Read Line. -/
def Obligations.ScriptQueries : Prop :=
  Claims.StoryQueries ∧ Claims.ReadLine

/-- Query Fault: both records, an empty one as zeros; a body that is not empty is Malformed; nothing changes. -/
def Obligations.QueryFault : Prop :=
  ∀ s : State,
    (Serving s 0x2C [] →
      exec .queryFault s = .next (answered s .done
        ((match s.script.fault with
          | none => [0, 0, 0, 0, 0, 0, 0, 0]
          | some f => [1, BitVec.ofNat 8 (f.causes.fixed.toNat + 2 * f.causes.closed.toNat + 4 * f.causes.limit.toNat +
              8 * f.causes.storeFull.toNat), f.kind.code, byte f.slot.val] ++ two f.line ++ twoOf f.frame) ++
         (match s.script.watch with
          | none => [0, 0, 0, 0, 0, 0, 0, 0]
          | some w => [1, w.kind.code, byte w.slot.val] ++ two w.line ++ [sbyte w.change] ++ twoOf w.frame)) s)) ∧
    (∀ r rest, s.link.requests = r :: rest → r.kind = 0x2C → r.body ≠ [] → s.canTake = true →
      exec .queryFault s = .next (refused s .malformed))

/-- Clear Fault empties the fault record with its frozen flag, and leaves the watch record and the notice list; on a
clear record nothing changes; a body that is not empty is Malformed. -/
def Sys2Proof.Claims.ClearFault : Prop :=
  ∀ s : State,
    (Serving s 0x2D [] →
      exec .clearFault s = .next (answered s .done [] { s with script := { s.script with fault := none } }) ∧
      (s.script.fault = none → exec .clearFault s = .next (answered s .done [] s))) ∧
    (∀ r rest, s.link.requests = r :: rest → r.kind = 0x2D → r.body ≠ [] → s.canTake = true →
      exec .clearFault s = .next (refused s .malformed))

/-- How an edit is refused and the fault record filled, and how Clear Fault empties it. -/
def Obligations.EditsRefusedAndCleared : Prop :=
  Claims.EditRefused ∧ Claims.ClearFault

/-! ### Motion requests (R67, R70, R78 to R84, R93) -/

/-- Run: from HALTED at a position that is not VOID, RUNNING from velocity 0; from STOPPING, RUNNING on at the velocity it
has; in RUNNING nothing; State at VOID and in STEPPING and GLIDING. -/
def Sys2Proof.Claims.Run : Prop :=
  ∀ s : State, Serving s 0x30 [] →
    (s.engine.motion = .halted → s.engine.live ≠ none →
      exec .run s = .next (answered s .done [] (s.withEngine { s.engine with motion := .running, velocity := 0 }))) ∧
    (s.engine.motion = .stopping →
      exec .run s = .next (answered s .done [] (s.withEngine { s.engine with motion := .running }))) ∧
    (s.engine.motion = .running → exec .run s = .next (answered s .done [] s)) ∧
    ((s.engine.motion = .halted ∧ s.engine.live = none) ∨ s.engine.motion = .stepping ∨ s.engine.motion = .gliding →
      exec .run s = .next (refused s .state))

/-- Stop, by request and as the STOP expiry action of a timer: from RUNNING, STEPPING and GLIDING to STOPPING, the target
of a step or glide cleared and the velocity cut to the max speed; in HALTED and STOPPING nothing. -/
def Sys2Proof.Claims.Stop : Prop :=
  ∀ s : State,
    let m : Int := s.engine.settings.maxSpeed
    let e := if s.engine.motion = .halted ∨ s.engine.motion = .stopping then s.engine
      else { s.engine with motion := .stopping, goal := none, velocity := max (-m) (min m s.engine.velocity) }
    (Serving s 0x31 [] → exec .stop s = .next (answered s .done [] (s.withEngine e))) ∧
    (∀ req rest, s.mail.engineStops = { req := req, body := () } :: rest → s.mail.engineReports = [] →
      exec .stopExpiryAction s = .next (sendIfIdle { s with
        cause := false, engine := e, mail := { s.mail with engineStops := rest } }))

/-- Run, Stop and the STOP expiry action. -/
def Obligations.RunAndStop : Prop :=
  Claims.Run ∧ Claims.Stop

/-- Halt: the scroll enters HALTED at once with cause REQUEST; the position and the target stay; in HALTED nothing
changes. The reply is Done in either case. -/
def Obligations.HaltRequest : Prop :=
  ∀ s : State, Serving s 0x32 [] →
    (s.engine.motion = .halted → exec .halt s = .next (answered s .done [] s)) ∧
    (s.engine.motion ≠ .halted →
      exec .halt s = .next (answered s .done [] (raise .scrollHalted (s.withEngine { s.engine with
        motion := .halted, velocity := 0, goal := none, haltCause := .request, haltFrame := s.clock.counter }))))

/-- Step: Range, then State; otherwise STEPPING toward the start of the line that the count names among the lines that
can be reached, or nothing where that is the place where the reading line stands or there is no line ahead. -/
def Sys2Proof.Claims.Step : Prop :=
  ∀ (s : State) (c : Byte), Serving s 0x33 [c] →
    let count := c.toInt
    (count = 0 ∨ 16 < count.natAbs → exec .step s = .next (refused s .range)) ∧
    (count ≠ 0 → count.natAbs ≤ 16 → s.engine.motion ≠ .halted ∨ s.engine.live = none →
      exec .step s = .next (refused s .state)) ∧
    (∀ p r, count ≠ 0 → count.natAbs ≤ 16 → s.engine.motion = .halted → s.engine.live = some p →
      s.script.reach p.block = some r →
      let lines := if 0 < count then r.fore else if p.sub = 0 then r.back else p.block :: r.back
      exec .step s = .next (answered s .done [] (match (lines.take count.natAbs).getLast? with
        | some b => s.withEngine { s.engine with
            motion := .stepping, goal := some { glide := false, block := b, framesLeft := 0 } }
        | none => s)))

/-- Go To: Range, No Story, State and Gap in that order; a jump when the glide frame count is 0 or the target is the live
position: the halt cause becomes ARRIVED, with an entry into HALTED from another state, and the position becomes the
start of the target line; a glide otherwise. -/
def Sys2Proof.Claims.GoTo : Prop :=
  ∀ (s : State) (body : List Byte), Serving s 0x34 body →
    let line := u16 body 1
    let frames := u8 body 3
    (64 ≤ u8 body 0 ∨ 250 < frames → exec .goTo s = .next (refused s .range)) ∧
    (∀ k : Slot, u8 body 0 = k.val → frames ≤ 250 →
      let y := s.script.stories[k]
      (y.state ≠ .free → y.lines.length ≤ line → exec .goTo s = .next (refused s .range)) ∧
      (y.state = .free → exec .goTo s = .next (refused s .noStory)) ∧
      (y.state ≠ .free → line < y.lines.length → (s.engine.live = none ∨ s.script.eligible k = false) →
        exec .goTo s = .next (refused s .state)) ∧
      (∀ (p : Pos) (a : Slot × Nat) (i j b : Nat), y.state ≠ .free → y.lines[line]? = some b →
        s.script.eligible k = true → s.engine.live = some p → s.script.locate p.block = some a →
        s.script.entryIndex a.1 = some i → s.script.entryIndex k = some j →
        let between := (s.script.order.drop (min i j + 1)).take (max i j - min i j - 1)
        ((∃ e ∈ between, s.script.standing e = .gap) → exec .goTo s = .next (refused s .gap)) ∧
        ((∀ e ∈ between, s.script.standing e ≠ .gap) →
          (frames = 0 ∨ p = { block := b, sub := 0 } →
            let e := { s.engine with haltCause := .arrived, haltFrame := s.clock.counter }
            let t := s.withCause true
            let u := if s.engine.motion = .halted then t.withEngine e
              else raise .scrollHalted (t.withEngine { e with motion := .halted, velocity := 0, goal := none })
            exec .goTo s = .next (answered s .done []
              (sendJumped (designate (u.withEngine { u.engine with live := some { block := b, sub := 0 } }))))) ∧
          (frames ≠ 0 → p ≠ { block := b, sub := 0 } →
            exec .goTo s = .next (answered s .done [] (s.withEngine { s.engine with
              motion := .gliding, goal := some { glide := true, block := b, framesLeft := frames } }))))))

/-- Step and Go To. -/
def Obligations.StepAndGoTo : Prop :=
  Claims.Step ∧ Claims.GoTo

/-- Set Speed and the holder's Set Target: Range beyond the max speed and Not Holder unless DESK holds the drive, for the
request; the holder's velocity is cut to the max speed. The target takes the value, and a glide ends in RUNNING from
velocity 0. -/
def Sys2Proof.Claims.Target : Prop :=
  ∀ s : State,
    let aimed (v : Int) : Engine :=
      if s.engine.motion = .gliding then
        { s.engine with target := v, goal := none, motion := .running, velocity := 0 }
      else { s.engine with target := v }
    (∀ body, Serving s 0x35 body → let v := s16 body 0
      (s.engine.settings.maxSpeed < v.natAbs → exec .setSpeed s = .next (refused s .range)) ∧
      (v.natAbs ≤ s.engine.settings.maxSpeed → s.arbiter.holder ≠ some .desk →
        exec .setSpeed s = .next (refused s .notHolder)) ∧
      (v.natAbs ≤ s.engine.settings.maxSpeed → s.arbiter.holder = some .desk →
        exec .setSpeed s = .next (answered s .done [] (s.withEngine (aimed v))))) ∧
    (∀ req v rest, s.mail.engineInput = { req := req, body := .setTarget v } :: rest → s.mail.engineReports = [] →
      let m : Int := s.engine.settings.maxSpeed
      exec .setTarget s = .next (sendIfIdle { s with
        cause := false, engine := aimed (max (-m) (min m v)), mail := { s.mail with engineInput := rest } }))

/-- Set Motion: Range for a value out of range; otherwise the settings are replaced, and the target, and the velocity in
RUNNING and STOPPING, are cut to the new max speed. -/
def Sys2Proof.Claims.SetMotion : Prop :=
  ∀ (s : State) (body : List Byte), Serving s 0x36 body →
    let m := u16 body 0
    let inRange := 1 ≤ m ∧ m ≤ 1024 ∧ 1 ≤ u16 body 2 ∧ u16 body 2 ≤ 256 ∧ 16 ≤ u16 body 4 ∧ u16 body 4 ≤ 1024 ∧
      u8 body 6 ≤ 1
    (¬inRange → exec .setMotion s = .next (refused s .range)) ∧
    (inRange → exec .setMotion s = .next (answered s .done [] (s.withEngine { s.engine with
      settings := { maxSpeed := m, accel := u16 body 2, stepSpeed := u16 body 4, stepKeys := u8 body 6 = 1 }
      target := max (-(m : Int)) (min m s.engine.target)
      velocity := if s.engine.motion = .running ∨ s.engine.motion = .stopping then
        max (-(m : Int)) (min m s.engine.velocity) else s.engine.velocity })))

/-- Set Preview: the none value makes the preview VOID; a line of a READY story becomes the preview; Range, No Story and
State otherwise. -/
def Sys2Proof.Claims.SetPreview : Prop :=
  ∀ (s : State) (body : List Byte), Serving s 0x37 body →
    let line := u16 body 1
    (u8 body 0 = 0xFF →
      exec .setPreview s = .next (answered s .done [] (s.withEngine { s.engine with preview := none }))) ∧
    (64 ≤ u8 body 0 → u8 body 0 ≠ 0xFF → exec .setPreview s = .next (refused s .range)) ∧
    (∀ k : Slot, u8 body 0 = k.val →
      let y := s.script.stories[k]
      (y.state = .free → exec .setPreview s = .next (refused s .noStory)) ∧
      (y.state ≠ .free → y.lines.length ≤ line → exec .setPreview s = .next (refused s .range)) ∧
      (y.state = .loading → line < y.lines.length → exec .setPreview s = .next (refused s .state)) ∧
      (∀ b, y.state = .ready → y.lines[line]? = some b →
        exec .setPreview s = .next (answered s .done [] (s.withEngine { s.engine with preview := some b }))))

/-- Set Speed with the holder's Set Target, Set Motion and Set Preview. -/
def Obligations.TargetSettingsAndPreview : Prop :=
  Claims.Target ∧ Claims.SetMotion ∧ Claims.SetPreview

/-- Query Motion: both positions, velocity and target, motion state, halt cause and frame, the step or glide target with
the frames left of a glide, the holder and its class, and the settings, as 11.4 lays them out; nothing changes; a body that
is not empty is Malformed. The byte of the frames left beside a step target is any value (free in the model), and the slot
and line of a block that no line list holds are free values: the spec states none, and these are the model's choices (logs
46 and 51). -/
def Obligations.QueryMotion : Prop :=
  ∀ s : State,
    (Serving s 0x38 [] → ∃ noFrames : Byte, exec .queryMotion s = .next (answered s .done
      ((match s.engine.live with
        | some p => 1 :: placeBytes s.script p.block ++ [byte p.sub] ++ two p.block
        | none => [0, 0, 0, 0, 0, 0, 0]) ++
       (match s.engine.preview with
        | some b => 1 :: placeBytes s.script b ++ two b
        | none => [0, 0, 0, 0, 0, 0]) ++
       stwo s.engine.velocity ++ stwo s.engine.target ++ [s.engine.motion.code, s.engine.haltCause.code] ++
       twoOf s.engine.haltFrame ++
       (match s.engine.goal with
        | some g => (if g.glide then 2 else 1) :: placeBytes s.script g.block ++
            [if g.glide then byte g.framesLeft else noFrames]
        | none => [0, 0, 0, 0, 0]) ++
       [sourceCode s.arbiter.holder, holderClassCode s.arbiter.holderClass] ++
       two s.engine.settings.maxSpeed ++ two s.engine.settings.accel ++ two s.engine.settings.stepSpeed ++
       [flagByte s.engine.settings.stepKeys]) s)) ∧
    (∀ r rest, s.link.requests = r :: rest → r.kind = 0x38 → r.body ≠ [] → s.canTake = true →
      exec .queryMotion s = .next (refused s .malformed))

/-! ### The frame advance (R71 to R77) -/

/-- What a frame start always does at the Scroll Engine: it is taken, and every Head Link is sent the position record of
the state it leaves, with the frame number it brought. Target and preview stay, but for reports that it takes first. In HALTED nothing moves and no air frame is reported. -/
def Obligations.FrameAlwaysPublished : Prop :=
  ∀ (s : State) (req : Bool) (frame : Half) (rest : List (Msg Half)),
    s.mail.engineFrames = { req := req, body := frame } :: rest →
    ∃ t, exec .frameAdvance s = .next (sendIfIdle t) ∧ t.mail.engineFrames = rest ∧
      (∀ h : HeadNo, t.mail.publish[h] = s.mail.publish[h] ++ [{ req := req, body :=
        { frame := frame, live := t.engine.live, liveAt := (t.engine.live.map (·.block)).bind s.script.locate
          preview := t.engine.preview, previewAt := t.engine.preview.bind s.script.locate
          motion := t.engine.motion } }]) ∧
      (s.mail.engineReports = [] →
        t.engine.target = s.engine.target ∧ t.engine.preview = s.engine.preview) ∧
      (s.mail.engineReports = [] → s.engine.motion = .halted →
        t.engine.live = s.engine.live ∧ t.engine.motion = .halted ∧ t.engine.velocity = s.engine.velocity ∧
        t.engine.haltCause = s.engine.haltCause ∧ t.cues = s.cues ∧ t.link = s.link ∧
        ∃ more, t.mail.toScript = s.mail.toScript ++ more ∧ ∀ m ∈ more, ∀ k, m.body ≠ .airFrame k)

/-- The order of the script: the standing of an entry, which stories are eligible, the one place of a block, and the lines
that can be reached from a block without meeting a GAP or the end of the running order, nearest first: those of its own
story, then those of the eligible stories beyond, PASSED entries being crossed. From a block in no eligible story nothing is
reached. -/
def Sys2Proof.Claims.ScriptOrder : Prop :=
  ∀ t : ScriptTable,
    (∀ e : Entry, let y := t.stories[e.slot]
      t.standing e =
        if e.floated = true ∨ y.state = .free then .passed
        else if y.state = .loading ∨ y.access = .closed then .gap
        else if y.lines = [] then .passed
        else .eligible) ∧
    ((t.order.map (·.slot)).Nodup → ∀ k : Slot, t.eligible k = true ↔
      t.stories[k].state = .ready ∧ t.stories[k].access ≠ .closed ∧ t.stories[k].lines ≠ [] ∧
        { slot := k, floated := false } ∈ t.order) ∧
    (∀ b, t.locate b = none ↔ ∀ k : Slot, b ∉ t.stories[k].lines) ∧
    (t.allLines.Nodup → ∀ (b : Nat) (k : Slot) (i : Nat),
      t.locate b = some (k, i) ↔ t.stories[k].lines[i]? = some b) ∧
    ((t.order.map (·.slot)).Nodup → t.allLines.Nodup → ∀ b : Nat,
      (∀ (k : Slot) (i j : Nat), t.stories[k].lines[i]? = some b → t.eligible k = true →
        t.order[j]?.map (·.slot) = some k →
        let ls := t.stories[k].lines
        let after := t.order.drop (j + 1)
        let before := (t.order.take j).reverse
        let met (es : List Entry) : List Entry :=
          (es.takeWhile (fun e => t.standing e ≠ .gap)).filter (fun e => t.standing e = .eligible)
        t.reach b = some
          { fore := ls.drop (i + 1) ++ (met after).flatMap (fun e => t.stories[e.slot].lines)
            foreGap := after.any (fun e => t.standing e = .gap)
            back := (ls.take i).reverse ++ (met before).flatMap (fun e => t.stories[e.slot].lines.reverse)
            backGap := before.any (fun e => t.standing e = .gap) }) ∧
      ((∀ k : Slot, t.eligible k = true → b ∉ t.stories[k].lines) → t.reach b = none))

/-- What velocities and distances come to: a velocity moves toward another by at most the limit; a place is counted 256
sublines a line, forward through the lines ahead and backward through those behind; the travel limits are subline 255 of
the last line ahead and subline 0 of the last line behind; and how far the start of a line lies. -/
def Sys2Proof.Claims.Distances : Prop :=
  (∀ (v t : Int) (a : Nat),
    ((t - v).natAbs ≤ a → toward v t a = t) ∧ (v + a < t → toward v t a = v + a) ∧
    (t < v - a → toward v t a = v - a)) ∧
  ∀ (r : Reach) (block : Nat),
    (∀ (i n b : Nat), n ≤ 255 → (block :: r.fore)[i]? = some b →
      r.at block (256 * (i : Int) + n) = { block := b, sub := n }) ∧
    (∀ (i n b : Nat), n ≤ 255 → r.back[i]? = some b →
      r.at block ((n : Int) - 256 * ((i : Int) + 1)) = { block := b, sub := n }) ∧
    r.ahead = 256 * (r.fore.length : Int) + 255 ∧ r.behind = -(256 * (r.back.length : Int)) ∧
    r.offset block block = some 0 ∧
    (∀ (i b : Nat), b ≠ block → r.fore[i]? = some b → b ∉ r.fore.take i →
      r.offset block b = some (256 * ((i : Int) + 1))) ∧
    (∀ (i b : Nat), b ≠ block → b ∉ r.fore → r.back[i]? = some b → b ∉ r.back.take i →
      r.offset block b = some (-(256 * ((i : Int) + 1)))) ∧
    (∀ b, b ≠ block → b ∉ r.fore → b ∉ r.back → r.offset block b = none)

/-- An advance with no marker to meet: in RUNNING the velocity moves toward the target, in STOPPING toward 0, by at most
the acceleration limit, and the position travels it, an air frame having been reported; at the travel limit the scroll
halts with END, or GAP where a GAP entry set the limit. A velocity of 0 travels nothing: RUNNING goes on, and STOPPING ends
in HALTED with cause REQUEST. That a running velocity may change its sign within a frame is the model's reading (log 38). -/
def Sys2Proof.Claims.FrameAdvanceRuns : Prop :=
  ∀ (s : State) (req : Bool) (frame : Half) (rest : List (Msg Half)) (p : Pos) (r : Reach) (a : Slot × Nat),
    s.mail.engineFrames = { req := req, body := frame } :: rest → s.mail.engineReports = [] →
    s.mail.cueReports = [] → s.mail.cueJumps = [] → s.cues.quiet = true → s.cues.queue = [] →
    s.engine.live = some p → s.script.reach p.block = some r → s.script.locate p.block = some a →
    s.engine.motion = .running ∨ s.engine.motion = .stopping →
    let aim := if s.engine.motion = .running then s.engine.target else 0
    let v := toward s.engine.velocity aim s.engine.settings.accel
    let x := (p.sub : Int) + v
    ∃ t, exec .frameAdvance s = .next (sendIfIdle t) ∧
      (s.mail.toScript ++ [{ req := req, body := .airFrame a.1 }]) <+: t.mail.toScript ∧
      t.engine.target = s.engine.target ∧ t.engine.preview = s.engine.preview ∧
      (v = 0 → t.engine.live = some p ∧ t.engine.velocity = 0 ∧
        (s.engine.motion = .running → t.engine.motion = .running ∧ t.link = s.link) ∧
        (s.engine.motion = .stopping → t.engine.motion = .halted ∧ t.engine.haltCause = .request ∧
          t.engine.haltFrame = s.clock.counter ∧ t.link = s.link.raise .scrollHalted)) ∧
      (v ≠ 0 → (0 < v → x < r.ahead) → (v < 0 → r.behind < x) →
        t.engine.live = some (r.at p.block x) ∧ t.engine.motion = s.engine.motion ∧ t.engine.velocity = v ∧
        t.link = s.link) ∧
      (0 < v → r.ahead ≤ x →
        t.engine.live = some (r.at p.block r.ahead) ∧ t.engine.motion = .halted ∧ t.engine.velocity = 0 ∧
        t.engine.haltCause = (if r.foreGap then .gap else .endOfScript) ∧ t.engine.haltFrame = s.clock.counter ∧
        t.link = s.link.raise .scrollHalted) ∧
      (v < 0 → x ≤ r.behind →
        t.engine.live = some (r.at p.block r.behind) ∧ t.engine.motion = .halted ∧ t.engine.velocity = 0 ∧
        t.engine.haltCause = (if r.backGap then .gap else .endOfScript) ∧ t.engine.haltFrame = s.clock.counter ∧
        t.link = s.link.raise .scrollHalted)

/-- An advance toward a step or glide target that no GAP cuts off: the step speed, or the distance over the frames left
rounded up and at most 1024, but no more than the distance. A target within that length is reached, and the scroll halts
there with STEP_DONE or ARRIVED; short of it the position travels the velocity. -/
def Sys2Proof.Claims.FrameAdvanceToTarget : Prop :=
  ∀ (s : State) (req : Bool) (frame : Half) (rest : List (Msg Half)) (p : Pos) (r : Reach) (g : Goal) (x : Int)
      (a : Slot × Nat),
    s.mail.engineFrames = { req := req, body := frame } :: rest → s.mail.engineReports = [] →
    s.mail.cueReports = [] → s.mail.cueJumps = [] → s.cues.quiet = true → s.cues.queue = [] →
    s.engine.live = some p → s.script.reach p.block = some r → s.engine.goal = some g →
    s.engine.motion = (if g.glide then .gliding else .stepping) → r.offset p.block g.block = some x →
    s.script.locate p.block = some a →
    let d := x - p.sub
    let speed := if g.glide = false then min s.engine.settings.stepSpeed d.natAbs
      else if g.framesLeft = 0 then 1024 else min 1024 ((d.natAbs + g.framesLeft - 1) / g.framesLeft)
    ∃ t, exec .frameAdvance s = .next (sendIfIdle t) ∧
      (s.mail.toScript ++ [{ req := req, body := .airFrame a.1 }]) <+: t.mail.toScript ∧
      t.engine.target = s.engine.target ∧ t.engine.preview = s.engine.preview ∧
      (d.natAbs ≤ speed →
        t.engine.live = some { block := g.block, sub := 0 } ∧ t.engine.motion = .halted ∧ t.engine.velocity = 0 ∧
        t.engine.goal = none ∧ t.engine.haltCause = (if g.glide then .arrived else .stepDone) ∧
        t.engine.haltFrame = s.clock.counter ∧ t.link = s.link.raise .scrollHalted) ∧
      (speed < d.natAbs →
        t.engine.velocity = (if 0 ≤ d then (speed : Int) else -(speed : Int)) ∧
        t.engine.live = some (r.at p.block (p.sub + t.engine.velocity)) ∧ t.engine.motion = s.engine.motion ∧
        t.engine.goal = some { g with framesLeft := g.framesLeft - 1 } ∧ t.link = s.link)

/-- An advance toward a step or glide target that a GAP cuts off: the step speed, or 1024 in a glide with the frames left
falling by 1, toward the target, and no further than the travel limit, where the scroll halts as ever. That toward the target
means by the order of the entries of the two stories is the model's reading (log 37). -/
def Sys2Proof.Claims.FrameAdvanceTowardGap : Prop :=
  ∀ (s : State) (req : Bool) (frame : Half) (rest : List (Msg Half)) (p : Pos) (r : Reach) (g : Goal) (a b : Slot × Nat)
      (i j : Nat),
    s.mail.engineFrames = { req := req, body := frame } :: rest → s.mail.engineReports = [] →
    s.mail.cueReports = [] → s.mail.cueJumps = [] → s.cues.quiet = true → s.cues.queue = [] →
    s.engine.live = some p → s.script.reach p.block = some r → s.engine.goal = some g →
    s.engine.motion = (if g.glide then .gliding else .stepping) → r.offset p.block g.block = none →
    s.script.locate p.block = some a → s.script.locate g.block = some b →
    s.script.entryIndex a.1 = some i → s.script.entryIndex b.1 = some j →
    let speed : Int := if g.glide then 1024 else s.engine.settings.stepSpeed
    let v := if i ≤ j then speed else -speed
    let x := (p.sub : Int) + v
    ∃ t, exec .frameAdvance s = .next (sendIfIdle t) ∧
      (s.mail.toScript ++ [{ req := req, body := .airFrame a.1 }]) <+: t.mail.toScript ∧
      t.engine.target = s.engine.target ∧ t.engine.preview = s.engine.preview ∧
      ((0 < v → x < r.ahead) → (v < 0 → r.behind < x) →
        t.engine.live = some (r.at p.block x) ∧ t.engine.motion = s.engine.motion ∧ t.engine.velocity = v ∧
        t.engine.goal = some { g with framesLeft := g.framesLeft - 1 } ∧ t.link = s.link) ∧
      (0 < v → r.ahead ≤ x →
        t.engine.live = some (r.at p.block r.ahead) ∧ t.engine.motion = .halted ∧ t.engine.velocity = 0 ∧
        t.engine.goal = none ∧ t.engine.haltCause = (if r.foreGap then .gap else .endOfScript) ∧
        t.engine.haltFrame = s.clock.counter ∧ t.link = s.link.raise .scrollHalted) ∧
      (v < 0 → x ≤ r.behind →
        t.engine.live = some (r.at p.block r.behind) ∧ t.engine.motion = .halted ∧ t.engine.velocity = 0 ∧
        t.engine.goal = none ∧ t.engine.haltCause = (if r.backGap then .gap else .endOfScript) ∧
        t.engine.haltFrame = s.clock.counter ∧ t.link = s.link.raise .scrollHalted)

/-- Whatever markers are queued, an advance that travels hands its span to the passage check: from the live position to
where the travel ends, in the direction of the velocity, SILENT exactly in GLIDING; the check finds the part with the frame
taken, the air frame reported, the new velocity and, toward a target, the frames left fallen by 1. On the answer clear the
position and the halt cause are those of the travel; paused at a block, the scroll halts at the start of that line with
MARKER. In RUNNING and STOPPING the travel ends at the travel limit or the velocity away, toward a target at the target or
the velocity away, and toward one that a GAP cuts off as in RUNNING. At velocity 0 nothing is handed over in RUNNING and
STOPPING. What the check does over the span is the passage check's own. Signs of velocities and the way past a GAP are as
the model reads them (logs 37 and 38). -/
def Sys2Proof.Claims.AdvanceChecked : Prop :=
  ∀ (s : State) (req : Bool) (frame : Half) (rest : List (Msg Half)) (p : Pos) (r : Reach) (a : Slot × Nat),
    s.mail.engineFrames = { req := req, body := frame } :: rest → s.mail.engineReports = [] →
    s.engine.live = some p → s.script.reach p.block = some r → s.script.locate p.block = some a →
    let mode : CheckMode := if s.engine.motion = .gliding then .silent else .fire
    let handed (v : Int) (goal : Option Goal) (forward : Bool) (stop : Pos) (cause : Option HaltCause) : Prop :=
      let w := { s with
        cause := req
        engine := { s.engine with velocity := v, goal := goal }
        mail := { s.mail with
          engineFrames := rest, toScript := s.mail.toScript ++ [{ req := req, body := .airFrame a.1 }] } }
      ∃ t, exec .frameAdvance s = .next (sendIfIdle t) ∧
        Travelled w (passageCheck p stop forward mode w) stop cause t
    let limited (v : Int) (goal : Option Goal) : Prop :=
      let x := (p.sub : Int) + v
      (0 < v → r.ahead ≤ x →
        handed v goal true (r.at p.block r.ahead) (some (if r.foreGap then .gap else .endOfScript))) ∧
      (v < 0 → x ≤ r.behind →
        handed v goal false (r.at p.block r.behind) (some (if r.backGap then .gap else .endOfScript))) ∧
      ((0 < v → x < r.ahead) → (v < 0 → r.behind < x) → handed v goal (decide (0 < v)) (r.at p.block x) none)
    let ramp (aim : Int) : Int := toward s.engine.velocity aim s.engine.settings.accel
    let still : Prop := ∃ t, exec .frameAdvance s = .next (sendIfIdle t) ∧ t.cues = s.cues
    (s.engine.motion = .running →
      (ramp s.engine.target ≠ 0 → limited (ramp s.engine.target) s.engine.goal) ∧
      (ramp s.engine.target = 0 → still)) ∧
    (s.engine.motion = .stopping → (ramp 0 ≠ 0 → limited (ramp 0) s.engine.goal) ∧ (ramp 0 = 0 → still)) ∧
    (∀ g, s.engine.goal = some g → s.engine.motion = (if g.glide then .gliding else .stepping) →
      let less := some { g with framesLeft := g.framesLeft - 1 }
      (∀ x, r.offset p.block g.block = some x →
        let d := x - p.sub
        let speed : Nat := if g.glide = false then min s.engine.settings.stepSpeed d.natAbs
          else if g.framesLeft = 0 then 1024 else min 1024 ((d.natAbs + g.framesLeft - 1) / g.framesLeft)
        let v : Int := if 0 ≤ d then speed else -(speed : Int)
        (d.natAbs ≤ speed → handed v less (decide (0 ≤ d)) { block := g.block, sub := 0 }
          (some (if g.glide then .arrived else .stepDone))) ∧
        (speed < d.natAbs → handed v less (decide (0 ≤ d)) (r.at p.block (p.sub + v)) none)) ∧
      (∀ b i j, r.offset p.block g.block = none → s.script.locate g.block = some b →
        s.script.entryIndex a.1 = some i → s.script.entryIndex b.1 = some j →
        let speed : Int := if g.glide then 1024 else s.engine.settings.stepSpeed
        let v := if i ≤ j then speed else -speed
        v ≠ 0 → limited v less))

/-- An advance: the order of the script and the distances in it, RUNNING and STOPPING and toward a target in STEPPING and
GLIDING with no marker queued, and with any queue the span it hands to the passage check and what the answer makes of it. -/
def Obligations.FrameAdvance : Prop :=
  Claims.ScriptOrder ∧ Claims.Distances ∧ Claims.FrameAdvanceRuns ∧ Claims.FrameAdvanceToTarget ∧ Claims.FrameAdvanceTowardGap ∧ Claims.AdvanceChecked

/-! ### Script-change reports and the holder's input at the Scroll Engine (R66, R68, R86 to R92) -/

/-- An insert report and an order changed report move nothing. A story eligible report moves a VOID position to the start
of the first eligible story, with Position Jumped, and no other position. The reports behind it are taken with it. -/
def Sys2Proof.Claims.QuietReports : Prop :=
  ∀ (s : State) (req : Bool) (rest : List (Msg ScriptReport)),
    let t := { s with cause := false, mail := { s.mail with engineReports := rest } }
    (∀ k i b, s.mail.engineReports = { req := req, body := .insert k i b } :: rest →
      exec .insertReport s = .next (sendIfIdle (takeReports t))) ∧
    (s.mail.engineReports = { req := req, body := .orderChanged } :: rest →
      exec .orderChangedReport s = .next (sendIfIdle (takeReports t))) ∧
    (∀ k, s.mail.engineReports = { req := req, body := .eligible k } :: rest →
      (s.engine.live ≠ none → exec .storyEligibleReport s = .next (sendIfIdle (takeReports t))) ∧
      (∀ j b, s.engine.live = none → s.script.firstEligible s.script.order = some j →
        s.script.stories[j].lines.head? = some b →
        let u := (takeReport (.eligible k) (t.withCause req)).withCause false
        exec .storyEligibleReport s = .next (sendIfIdle (takeReports u)) ∧ u.mail.engineReports = rest ∧
          u.engine.live = some { block := b, sub := 0 } ∧
          u.engine.motion = s.engine.motion ∧ u.engine.haltCause = s.engine.haltCause ∧
          u.mail.cueJumps = s.mail.cueJumps ++ [{ req := req, body := () }] ∧
          (s.script.locate b = some (j, 0) → s.engine.liveSlot = none →
            u.engine.liveSlot = some j ∧
            u.mail.toScript = s.mail.toScript ++ [{ req := req, body := .designation j }])))

/-- A delete report: a preview or a reading line in the run goes to the first line after the run, or failing that the
last line of the story; with no line left the preview becomes VOID and the reading line waits for the story ineligible
report. A target in the run ends the step or glide with SCRIPT_CHANGE. What lies outside the run stays. The reports behind
it are taken with it. -/
def Sys2Proof.Claims.DeleteReport : Prop :=
  ∀ (s : State) (req : Bool) (k : Slot) (first : Nat) (run : List Nat) (rest : List (Msg ScriptReport)),
    s.mail.engineReports = { req := req, body := .delete k first run } :: rest →
    let ls := s.script.stories[k].lines
    let after := if first < ls.length then ls[first]? else ls.getLast?
    let u := { s with cause := req, mail := { s.mail with engineReports := rest } }
    let t := (takeReport (.delete k first run) u).withCause false
    exec .deleteReport s = .next (sendIfIdle (takeReports t)) ∧ t.mail.engineReports = rest ∧
      t.engine.preview = (match s.engine.preview with
        | some b => if b ∈ run then after else some b
        | none => none) ∧
      (∀ p, s.engine.live = some p → p.block ∉ run ∨ after = none →
        t.engine.live = some p ∧ t.mail.cueJumps = s.mail.cueJumps) ∧
      (∀ p b, s.engine.live = some p → p.block ∈ run → after = some b →
        t.engine.live = some { block := b, sub := 0 } ∧
        t.mail.cueJumps = s.mail.cueJumps ++ [{ req := req, body := () }]) ∧
      (s.engine.live = none → t.engine.live = none) ∧
      (∀ g, s.engine.goal = some g → g.block ∈ run → s.engine.motion ≠ .halted →
        t.engine.motion = .halted ∧ t.engine.velocity = 0 ∧ t.engine.goal = none ∧
        t.engine.haltCause = .scriptChange ∧ t.engine.haltFrame = s.clock.counter ∧
        t.link = s.link.raise .scrollHalted) ∧
      ((∀ g, s.engine.goal = some g → g.block ∉ run) →
        t.engine.motion = s.engine.motion ∧ t.engine.velocity = s.engine.velocity ∧ t.engine.goal = s.engine.goal ∧
        t.engine.haltCause = s.engine.haltCause ∧ t.link = s.link)

/-- A story ineligible report naming the slot of the live position moves it to the start of the first eligible story
among the entries that stood after, or failing that to the last line of the last one before, or to VOID; from another
state than HALTED the scroll halts with SCRIPT_CHANGE. The move is a jump. One naming another slot moves nothing, and
ends a step or glide only if its target stands in that story. The reports behind it are taken with it.
The slot of the live position is the field the model keeps for it (log 27). -/
def Sys2Proof.Claims.StoryIneligibleReport : Prop :=
  ∀ (s : State) (req : Bool) (k : Slot) (index : Nat) (rest : List (Msg ScriptReport)),
    s.mail.engineReports = { req := req, body := .ineligible k index } :: rest →
    (s.engine.live ≠ none → s.engine.liveSlot = some k →
      let u := { s with cause := req, mail := { s.mail with engineReports := rest } }
      let t := (takeReport (.ineligible k index) u).withCause false
      exec .storyIneligibleReport s = .next (sendIfIdle (takeReports t)) ∧ t.mail.engineReports = rest ∧
        t.engine.live =
          (match s.script.firstEligible (s.script.order.drop index) with
           | some j => s.script.stories[j].lines.head?.map (fun b => { block := b, sub := 0 })
           | none =>
             match s.script.firstEligible (s.script.order.take index).reverse with
             | some j => s.script.stories[j].lines.getLast?.map (fun b => { block := b, sub := 0 })
             | none => none) ∧
        t.engine.target = s.engine.target ∧
        t.mail.cueJumps = s.mail.cueJumps ++ [{ req := req, body := () }] ∧
        (s.engine.motion ≠ .halted →
          t.engine.motion = .halted ∧ t.engine.velocity = 0 ∧ t.engine.goal = none ∧
          t.engine.haltCause = .scriptChange ∧ t.engine.haltFrame = s.clock.counter ∧
          t.link = s.link.raise .scrollHalted) ∧
        (s.engine.motion = .halted → t.engine.motion = .halted ∧ t.engine.haltCause = s.engine.haltCause ∧
          t.link = s.link)) ∧
    (s.engine.live = none ∨ s.engine.liveSlot ≠ some k →
      let t := { s with cause := false, mail := { s.mail with engineReports := rest } }
      let goalIn := s.engine.goal.any (fun g => (s.script.locate g.block).map (·.1) = some k)
      exec .storyIneligibleReport s = .next
        (sendIfIdle (takeReports (if goalIn = true ∧ s.engine.motion ≠ .halted then
          raise .scrollHalted (t.withEngine { s.engine with
            motion := .halted, velocity := 0, goal := none, haltCause := .scriptChange
            haltFrame := s.clock.counter })
        else t))))

/-- How the Scroll Engine stands once it has taken the reports that wait, as it does before any other event of its own:
none waits any more; with none waiting before it is as it was; and with one at the head it is as after that report, taken
under its own mark, and then those behind it. The mark of the event under way stays. The command of the report at the head
takes them all, so that no event of the engine, and no reading of its state, comes between two reports of one request. Before
another event of the engine a transmitter that waits sends what they have listed.
That other events take them first is the model's reading of the order the spec leaves (log 8), and that one command takes
them all its way of keeping them whole (log 50). -/
def Sys2Proof.Claims.ReportsTakenFirst : Prop :=
  ∀ s : State,
    (takeReports s).mail.engineReports = [] ∧
    (s.mail.engineReports = [] → takeReports s = s ∧ engineReady s = s) ∧
    (s.mail.engineReports ≠ [] → engineReady s = sendIfIdle (takeReports s)) ∧
    (∀ m rest, s.mail.engineReports = m :: rest →
      let c : Instr := match m.body with
        | .insert _ _ _ => .insertReport
        | .delete _ _ _ => .deleteReport
        | .ineligible _ _ => .storyIneligibleReport
        | .eligible _ => .storyEligibleReport
        | .orderChanged => .orderChangedReport
      let t := takeReport m.body { s with cause := m.req, mail := { s.mail with engineReports := rest } }
      exec c s = .next (sendIfIdle ((takeReports s).withCause false)) ∧
        t.mail.engineReports = rest ∧ takeReports s = (takeReports t).withCause s.cause)

/-- The five script-change reports at the Scroll Engine. -/
def Obligations.ScriptReports : Prop :=
  Claims.QuietReports ∧ Claims.DeleteReport ∧ Claims.StoryIneligibleReport ∧ Claims.ReportsTakenFirst

/-- The start/stop key of the holder in every motion state; at a VOID position it does nothing. -/
def Sys2Proof.Claims.StartStopKey : Prop :=
  ∀ (s : State) (req : Bool) (rest : List (Msg HolderInput)), s.mail.engineReports = [] →
    let t := { s with cause := false, mail := { s.mail with engineInput := rest } }
    let halted := raise .scrollHalted (t.withEngine { s.engine with
      motion := .halted, velocity := 0, goal := none, haltCause := .request, haltFrame := s.clock.counter })
    let m : Int := s.engine.settings.maxSpeed
    (s.mail.engineInput = { req := req, body := .key } :: rest →
      (s.engine.live = none → exec .startStopKey s = .next (sendIfIdle t)) ∧
      (s.engine.live ≠ none →
        (s.engine.motion = .halted → s.engine.settings.stepKeys = false →
          exec .startStopKey s = .next (sendIfIdle (t.withEngine { s.engine with motion := .running, velocity := 0 }))) ∧
        (s.engine.motion = .running → exec .startStopKey s = .next (sendIfIdle (t.withEngine { s.engine with
          motion := .stopping, goal := none, velocity := max (-m) (min m s.engine.velocity) }))) ∧
        (s.engine.motion = .stopping →
          exec .startStopKey s = .next (sendIfIdle (t.withEngine { s.engine with motion := .running }))) ∧
        (s.engine.motion = .stepping ∨ s.engine.motion = .gliding → exec .startStopKey s = .next (sendIfIdle halted)))) ∧
    (∀ p r, s.mail.engineInput = { req := req, body := .key } :: rest → s.engine.live = some p →
      s.script.reach p.block = some r → s.engine.motion = .halted → s.engine.settings.stepKeys = true →
      exec .startStopKey s = .next
        (sendIfIdle (match (if 0 ≤ s.engine.target then r.fore else if p.sub = 0 then r.back else [p.block]).head? with
         | some b => t.withEngine { s.engine with
             motion := .stepping, goal := some { glide := false, block := b, framesLeft := 0 } }
         | none => t)))

/-- The jog of the holder: at a VOID position nothing; otherwise STOPPING, STEPPING and GLIDING first enter HALTED with
REQUEST, RUNNING and HALTED stay. The displacement is travelled, no further than the travel limit, and its span is handed
to the passage check in its direction, FIRE whatever the state; what the Cue Monitor has left to do before a check is done
before the jog (log 10). Clear: the position is the end of the span. Paused at a
block: the position is the start of that line, a RUNNING scroll enters HALTED with MARKER, and a HALTED one keeps its
cause. The target and the preview are kept, and the velocity but for an entry into HALTED. With no marker queued, the
position and the notices are as the travel alone makes them. That a jog of 0 travels nothing is the model's reading
(log 35). -/
def Sys2Proof.Claims.Jog : Prop :=
  ∀ (s : State) (req : Bool) (d : Int) (rest : List (Msg HolderInput)), s.mail.engineReports = [] →
    s.mail.engineInput = { req := req, body := .jog d } :: rest →
    let taken := { s with cause := req, mail := { s.mail with engineInput := rest } }
    let halted (x : State) := if s.engine.motion = .running ∨ s.engine.motion = .halted then x
      else raise .scrollHalted (x.withEngine { s.engine with
        motion := .halted, velocity := 0, goal := none, haltCause := .request, haltFrame := s.clock.counter })
    (s.engine.live = none → exec .jog s = .next (sendIfIdle (taken.withCause false))) ∧
    (s.engine.live ≠ none → d = 0 → exec .jog s = .next (sendIfIdle ((halted taken).withCause false))) ∧
    (∀ p r, s.engine.live = some p → p.sub ≤ 255 → s.script.reach p.block = some r → d ≠ 0 →
      let stop := r.at p.block (max r.behind (min r.ahead ((p.sub : Int) + d)))
      let w := halted (cueReady taken)
      let c := passageCheck p stop (decide (0 < d)) .fire w
      ∃ u, exec .jog s = .next (sendIfIdle u) ∧
        u.mail.publish = s.mail.publish ∧ u.engine.target = s.engine.target ∧ u.engine.preview = s.engine.preview ∧
        (c.2 = none → Travelled w c stop none u) ∧
        (s.engine.motion = .running → Travelled w c stop none u) ∧
        (∀ b, s.engine.motion ≠ .running → c.2 = some b → Travelled w (c.1, none) { block := b, sub := 0 } none u)) ∧
    (∀ p r, s.engine.live = some p → p.sub ≤ 255 → s.script.reach p.block = some r → d ≠ 0 → s.mail.cueReports = [] →
      s.mail.cueJumps = [] → s.cues.quiet = true → s.cues.queue = [] →
      ∃ u, exec .jog s = .next (sendIfIdle u) ∧
        u.engine.live = some (r.at p.block (max r.behind (min r.ahead ((p.sub : Int) + d)))) ∧
        (s.engine.motion = .running ∨ s.engine.motion = .halted →
          u.engine.motion = s.engine.motion ∧ u.engine.velocity = s.engine.velocity ∧
          u.engine.haltCause = s.engine.haltCause ∧ u.link = s.link) ∧
        (s.engine.motion ≠ .running → s.engine.motion ≠ .halted →
          u.engine.motion = .halted ∧ u.engine.velocity = 0 ∧ u.engine.goal = none ∧
          u.engine.haltCause = .request ∧ u.link = s.link.raise .scrollHalted))


/-- The start/stop key and the jog of the holder. -/
def Obligations.KeyAndJog : Prop :=
  Claims.StartStopKey ∧ Claims.Jog

/-! ### Cues and cue timers (R138 to R154) -/

/-- A passage check over a span, the Cue Monitor having nothing else to take: an end block in no eligible story changes
nothing (R143); a backward span fires nothing and rebuilds the queue against its end; a SILENT check fires nothing and never
pauses. A forward span is the lines after its start, at or before its end; with a start block in no eligible story it
starts before the head of the queue and is every line that leads to its end without a gap, whether or not the head's own
line still stands. With no entry queued for a line of the span nothing happens. The first line of the span with an entry
queued is taken: the entry is removed and the queue refilled behind it; SILENT, or SKIPPED, it has no further effect; an
ARMED PAUSE fires and the check is answered paused at its block; any other ARMED marker fires; and but for the PAUSE the
check goes on with the lines after it. Which lines the span is with a start block in no eligible story, and that a queued
entry whose own line is gone neither fires nor stops the check, are the model's choice (log 11). -/
def Sys2Proof.Claims.SpanPassed : Prop :=
  ∀ (s : State) (start stop : Pos) (mode : CheckMode),
    s.mail.cueReports = [] → s.mail.cueJumps = [] → s.cues.quiet = true →
    (s.script.reach stop.block = none → ∀ fwd, passageCheck start stop fwd mode s = (s, none)) ∧
    (∀ r, s.script.reach stop.block = some r →
      passageCheck start stop false mode s =
        (s.withCues { s.cues with queue := ((markersOf s.store r.fore).take 16).map (fun e =>
          { e with skipped := s.cues.queue.any (fun o => o.block = e.block ∧ o.skipped) }) }, none)) ∧
    (mode = .silent → ∀ fwd, (passageCheck start stop fwd mode s).2 = none ∧
      (passageCheck start stop fwd mode s).1.link = s.link ∧
      (passageCheck start stop fwd mode s).1.cues.lastFired = s.cues.lastFired) ∧
    (∀ r, StoreInv s → ScriptInv s.script → s.script.reach stop.block = some r →
      let span : List Nat := match s.script.reach start.block with
        | some r0 => if stop.block ∈ r0.fore then r0.fore.takeWhile (· ≠ stop.block) ++ [stop.block] else []
        | none => r.back.reverse ++ [stop.block]
      let queued (b : Nat) : Prop := ∃ e ∈ s.cues.queue, e.block = b
      ((∀ b ∈ span, ¬queued b) → passageCheck start stop true mode s = (s, none)) ∧
      (∀ (i j : Nat) (e : CueEntry), s.cues.queue[j]? = some e → span[i]? = some e.block →
        (∀ b ∈ span.take i, ¬queued b) → (∀ o ∈ s.cues.queue.take j, o.block ≠ e.block) →
        let u := s.withCues { s.cues with queue := refill s.script s.store e.block (s.cues.queue.eraseIdx j) }
        let here : Pos := { block := e.block, sub := 0 }
        (mode = .silent ∨ e.skipped = true →
          passageCheck start stop true mode s = passageCheck here stop true mode u) ∧
        (mode = .fire → e.skipped = false → e.kind = .pause →
          passageCheck start stop true mode s = (fire e u, some e.block)) ∧
        (mode = .fire → e.skipped = false → e.kind ≠ .pause →
          passageCheck start stop true mode s = passageCheck here stop true mode (fire e u))))

/-- The scan and the refill of the queue: the scan takes the markers of lines in their order as ARMED entries with the kind and
parameter that the Text Store holds; the refill scans on from the line of the last entry queued, or from the line given
when none is, and adds what it finds that is not queued until sixteen are; the entries queued stay as they are. -/
def Sys2Proof.Claims.QueueRefilled : Prop :=
  (∀ (t : TextStore) (bs : List Nat) (e : CueEntry), e ∈ markersOf t bs ↔
    e.skipped = false ∧ e.block ∈ bs ∧
      ∃ r, (t.read e.block).record = some r ∧ r.marker = some { kind := e.kind, param := e.param }) ∧
  (∀ (t : TextStore) (bs : List Nat), List.Sublist ((markersOf t bs).map (·.block)) bs) ∧
  ∀ (t : ScriptTable) (st : TextStore) (line : Nat) (q : List CueEntry),
    let last := match q.getLast? with
      | some e => e.block
      | none => line
    (t.reach last = none → refill t st line q = q) ∧
    (∀ r, t.reach last = some r → refill t st line q =
      q ++ ((markersOf st r.fore).filter (fun e => q.all (fun o => o.block ≠ e.block))).take (16 - q.length))

/-- The passage check over a span, and the refill of the queue in it. -/
def Obligations.PassageCheck : Prop :=
  Claims.SpanPassed ∧ Claims.QueueRefilled

/-- A marker that fires: the last fired record and Cue Fired, then the action of its kind. -/
def Obligations.MarkerFires : Prop :=
  ∀ (s : State) (e : CueEntry) (a : Slot × Nat), s.script.locate e.block = some a →
    let record : FiredRecord :=
      { slot := a.1, line := a.2, kind := e.kind, param := e.param, frame := s.clock.counter }
    let c := { s.cues with lastFired := some record }
    let t := raise .cueFired (s.withCues c)
    (e.kind = .pause ∨ e.kind = .note → fire e s = t) ∧
    (∀ n : TimerNo, e.param = n.val →
      (e.kind = .timerStart → fire e s = t.withCues (c.withTimer n
        { c.timers[n] with count := c.timers[n].reload, running := true })) ∧
      (e.kind = .timerStop → fire e s = t.withCues (c.withTimer n
        { c.timers[n] with running := false }))) ∧
    (1 ≤ e.param →
      (e.kind = .lamp →
        let u := t.withCues { c with flashCount := max c.flashCount e.param }
        fire e s = if s.cues.flashCount = 0 then sendFlash true u else u) ∧
      (e.kind = .headFlag →
        let u := t.withCues { c with flagCount := max c.flagCount e.param }
        fire e s = if s.cues.flagCount = 0 then sendCueFlag true u else u))

/-- A scroll in RUNNING, STOPPING or STEPPING whose forward travel meets the line of an ARMED PAUSE, no other marker being
queued for the lines up to it, stops at the start of that line, HALTED with cause MARKER, whatever END, GAP or STEP_DONE
the rest of its travel would have met; target and preview stay. The new velocity and the way past a GAP are as the model
reads R72 (logs 37 and 38). -/
def Obligations.PauseStopsTheScroll : Prop :=
  ∀ (s : State) (req : Bool) (frame : Half) (rest : List (Msg Half)) (p : Pos) (r : Reach),
    s.mail.engineFrames = { req := req, body := frame } :: rest → s.mail.engineReports = [] →
    s.mail.cueReports = [] → s.mail.cueJumps = [] → s.cues.quiet = true →
    s.engine.live = some p → s.script.reach p.block = some r →
    let stops (v : Int) : Prop := ∀ (e : CueEntry) (i j k : Nat),
      let stop := r.at p.block (min r.ahead ((p.sub : Int) + v))
      0 < v → (s.script.reach stop.block).isSome = true → r.fore.findIdx? (· = stop.block) = some i →
      s.cues.queue[k]? = some e → j ≤ i → r.fore[j]? = some e.block →
      (∀ b ∈ r.fore.take j, ∀ o ∈ s.cues.queue, o.block ≠ b) → (∀ o ∈ s.cues.queue.take k, o.block ≠ e.block) →
      e.kind = .pause → e.skipped = false →
      ∃ t, exec .frameAdvance s = .next (sendIfIdle t) ∧ t.engine.live = some { block := e.block, sub := 0 } ∧
        t.engine.motion = .halted ∧ t.engine.velocity = 0 ∧ t.engine.goal = none ∧ t.engine.haltCause = .marker ∧
        t.engine.haltFrame = s.clock.counter ∧ t.engine.target = s.engine.target ∧
        t.engine.preview = s.engine.preview ∧ t.link = (s.link.raise .cueFired).raise .scrollHalted
    (s.engine.motion = .running → stops (toward s.engine.velocity s.engine.target s.engine.settings.accel)) ∧
    (s.engine.motion = .stopping → stops (toward s.engine.velocity 0 s.engine.settings.accel)) ∧
    (∀ g, s.engine.motion = .stepping → s.engine.goal = some g → g.glide = false →
      (∀ x, r.offset p.block g.block = some x → stops (min (s.engine.settings.stepSpeed : Int) (x - p.sub))) ∧
      (∀ a b m n, r.offset p.block g.block = none → s.script.locate p.block = some a →
        s.script.locate g.block = some b → s.script.entryIndex a.1 = some m → s.script.entryIndex b.1 = some n →
        m ≤ n → stops s.engine.settings.stepSpeed))

/-- A frame start at the Cue Monitor: each count above 0 falls by 1 and each running timer that is not CHAINED counts
down; the ends of counts and the expiries that this brings are due; no other timer and no record changes.
That what is due waits in the Cue Monitor is the model's choice (log 10). -/
def Sys2Proof.Claims.CueFrameStart : Prop :=
  ∀ (s : State) (req : Bool) (frame : Half) (rest : List (Msg Half)),
    s.mail.cueFrames = { req := req, body := frame } :: rest → s.mail.cueReports = [] → s.mail.cueJumps = [] →
    s.cues.quiet = true →
    let counts (n : TimerNo) : Bool := s.cues.timers[n].running && s.cues.timers[n].mode ≠ .chained
    ∃ t, exec .cueFrameStart s = .next (sendIfIdle t) ∧ t.mail = { s.mail with cueFrames := rest } ∧ t.link = s.link ∧
      t.cues.queue = s.cues.queue ∧ t.cues.lastFired = s.cues.lastFired ∧ t.cues.expired = s.cues.expired ∧
      t.cues.flashCount = s.cues.flashCount - 1 ∧ t.cues.flagCount = s.cues.flagCount - 1 ∧
      t.cues.flashEndDue = decide (s.cues.flashCount = 1) ∧ t.cues.flagEndDue = decide (s.cues.flagCount = 1) ∧
      (∀ n : TimerNo, t.cues.timers[n] =
        if counts n then { s.cues.timers[n] with count := s.cues.timers[n].count - 1 } else s.cues.timers[n]) ∧
      t.cues.expiring = (List.finRange 6).filter (fun n => counts n && decide (s.cues.timers[n].count ≤ 1))

/-- The ends of the two counts: Lamp Flash End to the four ports, Cue Flag End to the four heads, once when due. -/
def Sys2Proof.Claims.CountsEnd : Prop :=
  ∀ s : State,
    exec .flashCountEnd s = .next (sendIfIdle (if s.cues.flashEndDue then { s with
        cause := false, cues := { s.cues with flashEndDue := false }
        mail := { s.mail with flash := s.mail.flash.map (· ++ [{ req := false, body := false }]) } }
      else { s with cause := false })) ∧
    exec .cueFlagCountEnd s = .next (sendIfIdle (if s.cues.flagEndDue then { s with
        cause := false, cues := { s.cues with flagEndDue := false }
        mail := { s.mail with cueFlag := s.mail.cueFlag.map (· ++ [{ req := false, body := false }]) } }
      else { s with cause := false }))

/-- A timer expires: its number joins the expired set, Timer Expired is raised, its action is performed, and it goes on by
its mode; a running CHAINED timer numbered one above is counted down by it, and no other timer changes.
That an expiry waits in the Cue Monitor is the model's choice (log 10). -/
def Sys2Proof.Claims.TimerExpires : Prop :=
  ∀ (s : State) (n : TimerNo) (rest : List TimerNo),
    s.cues.expiring = n :: rest → s.cues.flashEndDue = false → s.cues.flagEndDue = false →
    let x := s.cues.timers[n]
    ∃ t, exec (.timerExpiry n) s = .next (sendIfIdle t) ∧
      t.cues.expired = s.cues.expired ||| BitVec.ofNat 8 (2 ^ n.val) ∧ t.link = s.link.raise .timerExpired ∧
      t.cues.queue = s.cues.queue ∧ t.cues.lastFired = s.cues.lastFired ∧ t.cues.flagCount = s.cues.flagCount ∧
      t.cues.timers[n] = (if x.mode = .reload then { x with count := x.reload }
        else { x with running := false, count := 0 }) ∧
      t.mail.engineStops =
        (if x.action = .stop then s.mail.engineStops ++ [{ req := false, body := () }] else s.mail.engineStops) ∧
      t.cues.flashCount = (if x.action = .lamp then max s.cues.flashCount 25 else s.cues.flashCount) ∧
      t.mail.flash = (if x.action = .lamp ∧ s.cues.flashCount = 0 then
        s.mail.flash.map (· ++ [{ req := false, body := true }]) else s.mail.flash) ∧
      (∀ m : TimerNo, m ≠ n → t.cues.timers[m] =
        if m.val = n.val + 1 ∧ s.cues.timers[m].running = true ∧ s.cues.timers[m].mode = .chained then
          { s.cues.timers[m] with count := s.cues.timers[m].count - 1 } else s.cues.timers[m]) ∧
      (∀ m : TimerNo, m ∈ t.cues.expiring ↔ m ∈ rest ∨ (m.val = n.val + 1 ∧ s.cues.timers[m].running = true ∧
        s.cues.timers[m].mode = .chained ∧ s.cues.timers[m].count ≤ 1))

/-- A frame start at the Cue Monitor, and the ends of counts and the expiries that it brings. -/
def Obligations.CueTime : Prop :=
  Claims.CueFrameStart ∧ Claims.CountsEnd ∧ Claims.TimerExpires

/-- Position Jumped, Line Rewritten and the script-change reports rebuild the queue against the live position: the first
16 markers ahead of it before a gap, each with the state its block had in the queue; against VOID it is empty. Three things
are the model's. The command of a report or a rewrite takes every one that waits, so that none comes between two of one
request: its choice of a way to keep them whole (log 50). A Position Jumped takes them with it: its reading of R40 (log 12).
Against a position that has left the scroll, until the jump that follows, the entries whose lines are still in it stay, as
their lines now hold them: its choice (log 11). -/
def Obligations.QueueRebuilt : Prop :=
  ∀ s : State, s.cues.quiet = true →
    let kept (es : List CueEntry) : List CueEntry :=
      es.map (fun e => { e with skipped := s.cues.queue.any (fun o => o.block = e.block ∧ o.skipped) })
    let queue := match s.engine.live with
      | none => []
      | some p => match s.script.reach p.block with
        | some r => kept ((markersOf s.store r.fore).take 16)
        | none => kept (markersOf s.store
            ((s.cues.queue.map (·.block)).filter (fun b => (s.script.reach b).isSome)))
    let cues := { s.cues with queue := queue }
    let taken := .next (sendIfIdle { s with cause := false, cues := cues, mail := { s.mail with cueReports := [] } })
    (∀ req rest, s.mail.cueJumps = { req := req, body := () } :: rest →
      exec .positionJumped s = .next (sendIfIdle { s with
        cause := false, cues := cues, mail := { s.mail with cueReports := [], cueJumps := rest } })) ∧
    (∀ req k b rest, s.mail.cueReports = { req := req, body := .rewritten k b } :: rest →
      exec .lineRewritten s = taken) ∧
    (∀ req x rest, s.mail.cueReports = { req := req, body := .report x } :: rest →
      exec .scriptChangeReport s = taken)

/-- Skip Cue marks an ARMED entry SKIPPED and answers its slot and line; Range beyond the queue, State for an entry
SKIPPED already. Query Cues gives the queue in order, the last fired record and the two counts (the layout of an entry is
the model's reading, log 15; the slot and line of a block that no line list holds are free values, log 51). -/
def Sys2Proof.Claims.CueRequests : Prop :=
  ∀ s : State,
    (∀ i : Byte, Serving s 0x51 [i] →
      (s.cues.queue.length ≤ i.toNat → exec .skipCue s = .next (refused s .range)) ∧
      (∀ e, s.cues.queue[i.toNat]? = some e →
        (e.skipped = true → exec .skipCue s = .next (refused s .state)) ∧
        (e.skipped = false → exec .skipCue s = .next (answered s .done (placeBytes s.script e.block)
          (s.withCues { s.cues with queue := s.cues.queue.set i.toNat { e with skipped := true } }))))) ∧
    (Serving s 0x50 [] →
      exec .queryCues s = .next (answered s .done
        (byte s.cues.queue.length :: s.cues.queue.flatMap (fun e =>
            two e.block ++ placeBytes s.script e.block ++ [e.kind.code, byte e.param, flagByte e.skipped]) ++
          (match s.cues.lastFired with
           | some x => [1, byte x.slot.val] ++ two x.line ++ [x.kind.code, byte x.param] ++ twoOf x.frame
           | none => [0, 0, 0, 0, 0, 0, 0, 0]) ++
          [byte s.cues.flashCount, byte s.cues.flagCount]) s))

/-- Set Timer, Start Timer and Stop Timer: Range for a number above 5, a mode or action that names none, a reload of 0 and a
CHAINED timer 0; a set timer that runs restarts from its new reload value, a started one from its reload value, and a
stopped one keeps its count. -/
def Sys2Proof.Claims.TimerRequests : Prop :=
  ∀ s : State,
    (∀ body, Serving s 0x52 body →
      (6 ≤ u8 body 0 ∨ TimerMode.ofCode (u8 body 1) = none ∨ ExpiryAction.ofCode (u8 body 4) = none ∨ u16 body 2 = 0 ∨
          (u8 body 0 = 0 ∧ u8 body 1 = 2) → exec .setTimer s = .next (refused s .range)) ∧
      (∀ (n : TimerNo) mode action, u8 body 0 = n.val → TimerMode.ofCode (u8 body 1) = some mode →
        ExpiryAction.ofCode (u8 body 4) = some action → u16 body 2 ≠ 0 → ¬(n = 0 ∧ mode = .chained) →
        let x := s.cues.timers[n]
        exec .setTimer s = .next (answered s .done [] (s.withCues (s.cues.withTimer n
          { mode := mode, reload := u16 body 2, count := if x.running then u16 body 2 else x.count
            running := x.running, action := action }))))) ∧
    (∀ b : Byte, Serving s 0x53 [b] → (6 ≤ b.toNat → exec .startTimer s = .next (refused s .range)) ∧
      (∀ n : TimerNo, b.toNat = n.val →
        exec .startTimer s = .next (answered s .done [] (s.withCues (s.cues.withTimer n
          { s.cues.timers[n] with count := s.cues.timers[n].reload, running := true }))))) ∧
    (∀ b : Byte, Serving s 0x54 [b] → (6 ≤ b.toNat → exec .stopTimer s = .next (refused s .range)) ∧
      (∀ n : TimerNo, b.toNat = n.val →
        exec .stopTimer s = .next (answered s .done [] (s.withCues (s.cues.withTimer n
          { s.cues.timers[n] with running := false })))))

/-- Skip Cue, Query Cues, Set Timer, Start Timer and Stop Timer. -/
def Obligations.CueAndTimerRequests : Prop :=
  Claims.CueRequests ∧ Claims.TimerRequests

/-- Query Timers: mode, reload value, count, running flag and action of each of the six, and the expired set, which is not
emptied; a body that is not empty is Malformed. The layout of the six is the model's reading of the list (log 15). -/
def Obligations.QueryTimers : Prop :=
  ∀ s : State,
    (Serving s 0x55 [] →
      exec .queryTimers s = .next (answered s .done
        (s.cues.timers.toList.flatMap (fun x =>
            [x.mode.code] ++ two x.reload ++ two x.count ++ [flagByte x.running, x.action.code]) ++
          [s.cues.expired]) s)) ∧
    (∀ r rest, s.link.requests = r :: rest → r.kind = 0x55 → r.body ≠ [] → s.canTake = true →
      exec .queryTimers s = .next (refused s .malformed))

/-! ### Drive arbitration (R119 to R137) -/

/-- When a port is barred: by a pin that names another port; with no pin, by the drive mode OPERATOR_ONLY for a PRESENTER
port and PRESENTER_ONLY for an OPERATOR port. -/
def Sys2Proof.Claims.Bars : Prop :=
  ∀ (a : Arbiter) (p : PortNo), a.barred p = true ↔
    (∃ q, a.pin = some q ∧ q ≠ p) ∨
    (a.pin = none ∧ ((a.mode = .operatorOnly ∧ a.classes[p] = .presenter) ∨
      (a.mode = .presenterOnly ∧ a.classes[p] = .operator)))

/-- A changed arbiter put in force: the drive states follow from holder, list and bars; a port whose drive state or class
has changed is sent one Standing report, and no other; Drive Changed is raised when the holder, the holding port's class,
the pin or the mode has changed, and not otherwise. -/
def Sys2Proof.Claims.ChangedArbiter : Prop :=
  ∀ (b : Arbiter) (s : State),
    let t := putArbiter b s
    let a := s.arbiter
    let held (x : Arbiter) : Option PortClass := match x.holder with
      | some (.port p) => some x.classes[p]
      | _ => none
    (∀ p : PortNo, t.arbiter.driveStates[p] =
      if b.holder = some (.port p) then .holding
      else if p ∈ b.joined then .waiting
      else if b.barred p = true then .barred
      else .idle) ∧
    t.arbiter = { b with driveStates := t.arbiter.driveStates } ∧
    (∀ p : PortNo, t.mail.standing[p] = s.mail.standing[p] ++
      if a.driveStates[p] = t.arbiter.driveStates[p] ∧ a.classes[p] = b.classes[p] then []
      else [{ req := s.cause, body := (t.arbiter.driveStates[p], b.classes[p]) }]) ∧
    { t.mail with standing := s.mail.standing } = s.mail ∧
    t.link = (if a.holder = b.holder ∧ held a = held b ∧ a.pin = b.pin ∧ a.mode = b.mode then s.link
      else s.link.raise .driveChanged)

/-- When a port is barred, and what a change of the arbiter brings with it. -/
def Obligations.ArbiterConsequences : Prop :=
  Claims.Bars ∧ Claims.ChangedArbiter

/-- A Claim makes the port active. A port that is barred or holds the drive, or one that is not recorded as ENABLED (the
model's choice, log 14), gets nothing more; a free drive is granted; an
OPERATOR port takes the drive from a PRESENTER port under OPERATOR_FIRST, which joins the list if active; otherwise the
port joins the waiting list, unless it stands there. -/
def Obligations.ClaimGrantsOrWaits : Prop :=
  ∀ (s : State) (p : PortNo) (req : Bool) (rest : List (Msg PortMsg)),
    s.mail.toArbiter[p] = { req := req, body := .claim } :: rest → ArbiterInv s.arbiter →
    let u := (s.withMail { s.mail with toArbiter := s.mail.toArbiter.set p.val rest p.isLt }).withCause req
    let a := { s.arbiter with active := s.arbiter.active.set p.val true p.isLt }
    let joins (x : Arbiter) (q : PortNo) : List PortNo := if q ∈ x.joined then x.joined else x.joined ++ [q]
    (s.arbiter.barred p = true ∨ s.arbiter.holder = some (.port p) ∨ s.arbiter.enabled[p] = false →
      exec (.claim p) s = .next (sendIfIdle ((putArbiter a u).withCause false))) ∧
    (s.arbiter.barred p = false → s.arbiter.enabled[p] = true → s.arbiter.holder = none →
      exec (.claim p) s = .next (sendIfIdle ((putArbiter { a with holder := some (.port p) } u).withCause false))) ∧
    (s.arbiter.barred p = false → s.arbiter.enabled[p] = true → s.arbiter.holder = some .desk →
      exec (.claim p) s = .next (sendIfIdle ((putArbiter { a with joined := joins a p } u).withCause false))) ∧
    (∀ q, s.arbiter.barred p = false → s.arbiter.enabled[p] = true → s.arbiter.holder = some (.port q) → q ≠ p →
      (s.arbiter.mode = .operatorFirst → s.arbiter.classes[p] = .operator → s.arbiter.classes[q] = .presenter →
        exec (.claim p) s = .next (sendIfIdle ((putArbiter { a with
          holder := some (.port p)
          joined := (if s.arbiter.active[q] then s.arbiter.joined ++ [q] else s.arbiter.joined).filter (· ≠ p) }
          u).withCause false))) ∧
      (¬(s.arbiter.mode = .operatorFirst ∧ s.arbiter.classes[p] = .operator ∧ s.arbiter.classes[q] = .presenter) →
        exec (.claim p) s = .next (sendIfIdle ((putArbiter { a with joined := joins a p } u).withCause false))))

/-- What a release leads to: a standing desk claim, else a pinned port that is ENABLED, else the head of the waiting list,
OPERATOR ports first and within a class in order of joining, else no holder. A granted port leaves the list. -/
def Sys2Proof.Claims.Release : Prop :=
  ∀ a : Arbiter,
    (a.deskClaim = true → a.release = { a with holder := some .desk }) ∧
    (∀ p, a.deskClaim = false → a.pin = some p → a.enabled[p] = true →
      a.release = { a with holder := some (.port p), joined := a.joined.filter (· ≠ p) }) ∧
    (a.deskClaim = false → (∀ p, a.pin = some p → a.enabled[p] = false) →
      (∀ q, (a.joined.filter (fun p => a.classes[p] = .operator) ++
          a.joined.filter (fun p => a.classes[p] = .presenter)).head? = some q →
        a.release = { a with holder := some (.port q), joined := a.joined.filter (· ≠ q) }) ∧
      (a.joined = [] → a.release = { a with holder := none }))

/-- Idle, Port Ready, Port Gone and the input of a port: an idle port is no longer active and leaves the list, and gives up
the drive unless it is pinned; a ready port is recorded as ENABLED and gets a free drive that is pinned to it; a gone port
is recorded as not ENABLED, leaves the list and gives up the drive; input goes on to the Scroll Engine exactly when the
port holds the drive as the arbiter takes it. That input formed before the port lost the drive goes on when the port has
regained it by then is the model's choice (log 53). -/
def Sys2Proof.Claims.PortMessages : Prop :=
  ∀ (s : State) (p : PortNo) (req : Bool) (rest : List (Msg PortMsg)),
    let u := (s.withMail { s.mail with toArbiter := s.mail.toArbiter.set p.val rest p.isLt }).withCause req
    let quiet := { s.arbiter with active := s.arbiter.active.set p.val false p.isLt }
    let out := { quiet with joined := s.arbiter.joined.filter (· ≠ p) }
    (s.mail.toArbiter[p] = { req := req, body := .idle } :: rest →
      exec (.idle p) s = .next (sendIfIdle ((putArbiter
        (if s.arbiter.holder = some (.port p) ∧ s.arbiter.pin ≠ some p then out.release else out) u).withCause
        false))) ∧
    (s.mail.toArbiter[p] = { req := req, body := .ready } :: rest →
      let ready := { quiet with enabled := s.arbiter.enabled.set p.val true p.isLt }
      exec (.portReady p) s = .next (sendIfIdle ((putArbiter
        (if s.arbiter.pin = some p ∧ s.arbiter.deskClaim = false ∧ s.arbiter.holder = none then
          { ready with holder := some (.port p), joined := s.arbiter.joined.filter (· ≠ p) } else ready)
        u).withCause false))) ∧
    (s.mail.toArbiter[p] = { req := req, body := .gone } :: rest →
      let gone := { out with enabled := s.arbiter.enabled.set p.val false p.isLt }
      exec (.portGone p) s = .next (sendIfIdle ((putArbiter
        (if s.arbiter.holder = some (.port p) then gone.release else gone) u).withCause false))) ∧
    (∀ m x, (m, x) ∈ [(PortMsg.key, HolderInput.key)] ∨ (∃ v, m = .setTarget v ∧ x = .setTarget v) ∨
        (∃ d, m = .jog d ∧ x = .jog d) →
      s.mail.toArbiter[p] = { req := req, body := m } :: rest →
      exec (.passHolderInput p) s = .next (sendIfIdle ((if s.arbiter.holder = some (.port p) then
        u.withMail { u.mail with engineInput := s.mail.engineInput ++ [{ req := req, body := x }] } else u).withCause
        false)))

/-- Idle, Port Ready, Port Gone and holder input at the arbiter, and what a release of the drive leads to. -/
def Obligations.PortMessagesAndRelease : Prop :=
  Claims.Release ∧ Claims.PortMessages

/-- Claim Drive and Release Drive: the desk claim stands and DESK holds, a port that held joining the list if active; a
Claim Drive while the claim stands changes nothing; Release Drive clears the claim and releases the drive, and is Not
Holder while none stands. -/
def Sys2Proof.Claims.DeskRequests : Prop :=
  ∀ s : State,
    (Serving s 0x43 [] →
      (s.arbiter.deskClaim = true → exec .claimDrive s = .next (answered s .done [] s)) ∧
      (s.arbiter.deskClaim = false → (∀ q, s.arbiter.holder ≠ some (.port q)) →
        exec .claimDrive s = .next (answered s .done []
          (putArbiter { s.arbiter with deskClaim := true, holder := some .desk } (s.withCause true)))) ∧
      (∀ q, s.arbiter.deskClaim = false → s.arbiter.holder = some (.port q) → q ∉ s.arbiter.joined →
        exec .claimDrive s = .next (answered s .done []
          (putArbiter { s.arbiter with
            deskClaim := true, holder := some .desk
            joined := if s.arbiter.active[q] then s.arbiter.joined ++ [q] else s.arbiter.joined }
            (s.withCause true))))) ∧
    (Serving s 0x44 [] →
      (s.arbiter.deskClaim = false → exec .releaseDrive s = .next (refused s .notHolder)) ∧
      (s.arbiter.deskClaim = true → exec .releaseDrive s = .next (answered s .done []
        (putArbiter { s.arbiter with deskClaim := false }.release (s.withCause true)))))

/-- Pin Drive, Set Drive Mode and Set Port Class: Range for a value that names none; what is in force already changes
nothing; a pin set where none stands clears the list of other ports and gives an ENABLED port the drive, or takes it from
a holding port, unless DESK holds; a pin removed lets the old port keep the drive only while active and not barred; a new
mode or class takes barred ports out of the list and the drive from a barred holder. -/
def Sys2Proof.Claims.DriveSettings : Prop :=
  ∀ (s : State) (body : List Byte),
    let a := s.arbiter
    let u := s.withCause true
    let unbarred (x : Arbiter) : Arbiter := { x with joined := x.joined.filter (fun p => x.barred p = false) }
    let rebarred (x : Arbiter) : Arbiter := match x.holder with
      | some (.port q) => if x.barred q then (unbarred x).release else unbarred x
      | _ => unbarred x
    let pinned (x : Arbiter) (p : PortNo) : Arbiter :=
      let y := { x with pin := some p, joined := x.joined.filter (· = p) }
      if x.deskClaim then y
      else if x.enabled[p] then { y with holder := some (.port p), joined := [] }
      else match x.holder with
        | some (.port _) => y.release
        | _ => y
    let unpinned (old : PortNo) : Arbiter :=
      let y := unbarred { a with pin := none }
      if a.holder = some (.port old) ∧ (a.active[old] = false ∨ y.barred old = true) then y.release else y
    (Serving s 0x42 body →
      (4 ≤ u8 body 0 → u8 body 0 ≠ 0xFF → exec .pinDrive s = .next (refused s .range)) ∧
      (u8 body 0 = 0xFF → a.pin = none → exec .pinDrive s = .next (answered s .done [] s)) ∧
      (∀ old, u8 body 0 = 0xFF → a.pin = some old →
        exec .pinDrive s = .next (answered s .done [] (putArbiter (unpinned old) u))) ∧
      (∀ p : PortNo, u8 body 0 = p.val →
        (a.pin = some p → exec .pinDrive s = .next (answered s .done [] s)) ∧
        (a.pin = none → exec .pinDrive s = .next (answered s .done [] (putArbiter (pinned a p) u))) ∧
        (∀ old, a.pin = some old → old ≠ p →
          exec .pinDrive s = .next (answered s .done [] (putArbiter (pinned (unpinned old) p) u))))) ∧
    (Serving s 0x40 body →
      (DriveMode.ofCode (u8 body 0) = none → exec .setDriveMode s = .next (refused s .range)) ∧
      (DriveMode.ofCode (u8 body 0) = some a.mode → exec .setDriveMode s = .next (answered s .done [] s)) ∧
      (∀ m, DriveMode.ofCode (u8 body 0) = some m → m ≠ a.mode →
        exec .setDriveMode s = .next (answered s .done [] (putArbiter (rebarred { a with mode := m }) u)))) ∧
    (Serving s 0x41 body →
      (4 ≤ u8 body 0 ∨ PortClass.ofCode (u8 body 1) = none → exec .setPortClass s = .next (refused s .range)) ∧
      (∀ (p : PortNo) c, u8 body 0 = p.val → PortClass.ofCode (u8 body 1) = some c →
        (c = a.classes[p] → exec .setPortClass s = .next (answered s .done [] s)) ∧
        (c ≠ a.classes[p] → exec .setPortClass s = .next (answered s .done [] (putArbiter
          (rebarred { a with classes := a.classes.set p.val c p.isLt }) u)))))

/-- Claim Drive, Release Drive, Pin Drive, Set Drive Mode and Set Port Class. -/
def Obligations.DriveRequests : Prop :=
  Claims.DeskRequests ∧ Claims.DriveSettings

/-- Query Drive: holder and class, desk claim, pin, mode, the waiting list in order, and for each port its class, drive
state, enabled view and active flag; a body that is not empty is Malformed; nothing changes. The layout is the model's
reading of the list (log 15). -/
def Obligations.QueryDrive : Prop :=
  ∀ s : State, let a := s.arbiter
    (Serving s 0x45 [] →
      exec .queryDrive s = .next (answered s .done
        ([sourceCode a.holder, holderClassCode a.holderClass, flagByte a.deskClaim, portByte a.pin, a.mode.code] ++
          byte a.waiting.length :: a.waiting.map (fun p => byte p.val) ++
          (List.finRange 4).flatMap (fun p =>
            [a.classes[p].code, a.driveStates[p].code, flagByte a.enabled[p], flagByte a.active[p]])) s)) ∧
    (∀ r rest, s.link.requests = r :: rest → r.kind = 0x45 → r.body ≠ [] → s.canTake = true →
      exec .queryDrive s = .next (refused s .malformed))

/-! ### Control ports (R96 to R118) -/

/-- Presence, its loss, the end of a hold-off and overcurrent, each at a port whose last poll is finished.
That the 20 ms of presence and of absence are counted by the field `watchFrom` is the model's choice (log 23); that what the
last poll leaves due (`releaseDue`) is done before is its choice too (log 10). -/
def Sys2Proof.Claims.Attaching : Prop :=
  ∀ (s : State) (p : PortNo), s.ports[p].quiet = true →
    let q := s.ports[p]
    let u := s.withCause false
    (q.state = .detached → q.holdOff = none → q.watchFrom + 20000 ≤ s.now →
      ∃ x, exec (.presenceFound p) s = .next (sendIfIdle ((setChange .connect p (u.withPort p x)).withCause false)) ∧
        x.state = .identifying ∧ x.supply = true ∧ x.silence = 0 ∧ x.nextPoll = s.now + 10000 ∧
        x.pollOut = portFrame 0x01 [flagByte (decide (q.phase < q.pattern.on))] ∧
        x.kind = q.kind ∧ x.common = q.common ∧ x.fault = q.fault ∧ x.changeByte = q.changeByte) ∧
    (q.state ≠ .detached → q.watchFrom + 20000 ≤ s.now →
      ∃ x, exec (.presenceLost p) s = .next (sendIfIdle (((if q.state = .enabled then
            fun v => sendArbiter p .gone (setChange .enable p v) else id)
          (setChange .connect p (u.withPort p x))).withCause false)) ∧
        x.state = .detached ∧ x.supply = false ∧ x.fault = none ∧ x.kind = none ∧ x.acquired = 0 ∧
        x.baselines = Vector.replicate 5 0 ∧ x.reverse = false ∧ x.mapped = none ∧ x.lastSent = none ∧
        x.common = q.common ∧ x.wheel = q.wheel ∧ x.strip = q.strip ∧ x.pedal = q.pedal ∧
        x.lampOverride = q.lampOverride ∧ x.drive = q.drive ∧ x.cls = q.cls ∧ x.changeByte = q.changeByte) ∧
    (∀ t, q.holdOff = some t →
      exec (.holdOffEnd p) s = .next (sendIfIdle ((if t ≤ s.now then
        u.withPort p { q with holdOff := none, watchFrom := s.now } else u).withCause false))) ∧
    (q.supply = true →
      exec (.overcurrent p) s = .next (sendIfIdle (((if q.state = .enabled then
          fun v => sendArbiter p .gone (setChange .enable p v) else id)
        (setChange .fault p (u.withPort p { q with
          supply := false, state := .faulted, fault := some .supply, releaseDue := false }))).withCause false))) ∧
    (q.supply = false → exec (.overcurrent p) s = .next (sendIfIdle (s.withCause false)))

/-- A Poll that is due closes the one before: unanswered, it adds to the silence count, and in ENABLED to the idle count
until Idle is sent. Unless the silence count has reached its limit, the next Poll goes out with the lamp output, and the
phase moves on.
When an unanswered poll counts, and from when the next one is timed, are the model's readings (logs 20 and 24); the fields
that hold the next Poll's time, its answer and an Idle still to send are its own (logs 10 and 23). -/
def Sys2Proof.Claims.Poll : Prop :=
  ∀ (s : State) (p : PortNo), s.ports[p].quiet = true →
    let q := s.ports[p]
    (q.state.polls = true → q.nextPoll ≤ s.now →
      let silence := if q.answered then q.silence else min (q.silence + 1) 10
      let idle := if q.answered = false ∧ q.state = .enabled ∧ q.idleSent = false then min (q.idle + 1) 1000 else q.idle
      let limit := if q.state = .identifying then 10 else 5
      ∃ x, exec (.poll p) s = .next (sendIfIdle ((s.withPort p x).withCause false)) ∧ x.silence = silence ∧ x.idle = idle ∧
        x.state = q.state ∧
        (x.releaseDue = true ↔ q.state = .enabled ∧ q.idleSent = false ∧ q.common.releaseTime ≤ idle) ∧
        (silence < limit →
          x.pollOut = portFrame 0x01 [flagByte (decide (q.phase < q.pattern.on))] ∧ x.nextPoll = s.now + 10000 ∧
          x.answered = false ∧
          x.phase = if q.phase + 1 < q.pattern.on + q.pattern.off then q.phase + 1 else 0) ∧
        (limit ≤ silence → x.pollOut = q.pollOut ∧ x.nextPoll = q.nextPoll)) ∧
    (q.state.polls = false ∨ s.now < q.nextPoll → exec (.poll p) s = .next (sendIfIdle (s.withCause false)))

/-- What a poll can leave due: the Idle message, sent once, and the fault SILENT, which in ENABLED also sends Port Gone.
That Idle goes before the fault is the model's choice (log 22), and that both wait in the port's own fields (`releaseDue`,
log 10; the silence count) for a step of their own is too (logs 10 and 23). -/
def Sys2Proof.Claims.AfterAPoll : Prop :=
  ∀ (s : State) (p : PortNo),
    let q := s.ports[p]
    let u := s.withCause false
    (q.releaseDue = true →
      exec (.releaseTimeReached p) s = .next (sendIfIdle ((sendArbiter p .idle
        (u.withPort p { q with releaseDue := false, idleSent := true })).withCause false))) ∧
    (q.releaseDue = false → exec (.releaseTimeReached p) s = .next (sendIfIdle u)) ∧
    (q.releaseDue = false → (q.state = .identifying ∧ 10 ≤ q.silence) ∨
        ((q.state = .attached ∨ q.state = .enabled) ∧ 5 ≤ q.silence) →
      exec (.silenceFault p) s = .next (sendIfIdle (((if q.state = .enabled then
          fun v => sendArbiter p .gone (setChange .enable p v) else id)
        (setChange .fault p (u.withPort p { q with
          state := .faulted, fault := some .silent, releaseDue := false }))).withCause false))) ∧
    (q.releaseDue = false → q.silenceDue = false → exec (.silenceFault p) s = .next (sendIfIdle u))

/-- What a port does by itself: attaching and detaching, its polls, and what a poll leaves due. -/
def Obligations.PortTime : Prop :=
  Claims.Attaching ∧ Claims.Poll ∧ Claims.AfterAPoll

/-- A Hello met by a listening port: in IDENTIFYING it makes the port ATTACHED, and ENABLED at once with auto-enable, which
sends Port Ready; later it is taken as a restart. It answers the poll, sets the kind and clears the latched reverse, the
mapped target and last sent and the acquisition. -/
def Sys2Proof.Claims.Hello : Prop :=
  ∀ (s : State) (p : PortNo) (k : Kind), s.ports[p].quiet = true → s.ports[p].listens s.now = true →
    s.ports[p].rx = .hunting →
    let q := s.ports[p]
    ∃ t x, exec (.hello p (goodChars (portFrame 0x10 [kindCode (some k)]))) s = .next (sendIfIdle t) ∧ t.ports[p] = x ∧
      x.kind = some k ∧ x.answered = true ∧ x.silence = 0 ∧ x.reverse = false ∧ x.mapped = none ∧
      x.lastSent = none ∧ x.acquired = 0 ∧ t.link = s.link ∧
      (q.state = .identifying →
        x.state = (if q.common.autoEnable then .enabled else .attached) ∧
        (q.common.autoEnable = true → x.idle = 0 ∧ x.idleSent = false) ∧
        t.mail.toArbiter[p] = s.mail.toArbiter[p] ++
          (if q.common.autoEnable then [{ req := false, body := .ready }] else [])) ∧
      (q.state ≠ .identifying →
        x.state = q.state ∧ t.mail = s.mail ∧
        (q.drive = .holding → x.pickup =
          if (k = .strip ∨ k = .pedal) ∧ 0 < q.common.tolerance then .waiting else .pickedUp))

/-- A data report of a WHEEL met by a listening port of that kind in ENABLED: it answers the poll; an active one sends a
Claim and starts the idle count again, an inactive one adds to it; from the holder, SPEED sends the target moved by the
delta, signed over for REVERSE, and JOG the reversed target and the displacement, a START_STOP press between them. In
ATTACHED it sends nothing. When a poll counts as inactive is the model's reading (log 20). -/
def Sys2Proof.Claims.WheelReport : Prop :=
  ∀ (s : State) (p : PortNo) (delta keys : Byte), s.ports[p].quiet = true → s.ports[p].listens s.now = true →
    s.ports[p].rx = .hunting → s.ports[p].kind = some .wheel →
    s.ports[p].state = .attached ∨ s.ports[p].state = .enabled →
    let q := s.ports[p]
    let d := delta.toInt
    let reverse := keys.getLsbD 1
    let active := d ≠ 0 ∨ keys &&& 7 ≠ 0
    let v := s.engine.target + d * q.wheel.speedStep
    let input : List PortMsg :=
      (match q.wheel.style with
       | .speed => if d ≠ 0 ∨ reverse = true then [.setTarget (if reverse then -v else v)] else []
       | .jog => if reverse then [.setTarget (-s.engine.target)] else []) ++
      (if keys.getLsbD 0 then [.key] else []) ++
      (if q.wheel.style = .jog ∧ d ≠ 0 then [.jog (d * q.wheel.jogSize)] else [])
    ∃ t, exec (.dataReport p (goodChars (portFrame 0x11 [delta, keys]))) s = .next (sendIfIdle t) ∧ t.link = s.link ∧
      t.ports[p].answered = true ∧ t.ports[p].silence = 0 ∧ t.ports[p].state = q.state ∧
      (q.state = .attached → t.mail = s.mail ∧ t.ports[p].idle = q.idle) ∧
      (q.state = .enabled →
        t.mail.toArbiter[p] = s.mail.toArbiter[p] ++
          ((if active then [PortMsg.claim] else []) ++ (if q.drive = .holding then input else [])).map
            (fun m => { req := false, body := m }) ∧
        (active → t.ports[p].idle = 0 ∧ t.ports[p].idleSent = false) ∧
        (¬active → t.ports[p].idle = if q.idleSent then q.idle else min (q.idle + 1) 1000))

/-- A data report of a PEDAL met by a listening port of that kind: it answers the poll. In ATTACHED it does nothing more. In
ENABLED a REVERSE press toggles the latched reverse, and the level over the dead band, times the gain, over 16, signed by it,
is the mapped target; an active report sends a Claim and starts the idle count again, an inactive one adds to it. A
picked-up holder sends the mapped target when it is not what it last sent, and a waiting one becomes picked up within the
tolerance of the target or on crossing it. That the press is taken before the level is mapped is the model's reading
(log 18), as is that the mapped target is formed in ENABLED alone (log 21) and when a poll counts as inactive (log 20). -/
def Sys2Proof.Claims.PedalReport : Prop :=
  ∀ (s : State) (p : PortNo) (level keys : Byte), s.ports[p].quiet = true → s.ports[p].listens s.now = true →
    s.ports[p].rx = .hunting → s.ports[p].kind = some .pedal →
    let q := s.ports[p]
    let l := level.toNat
    let reverse := q.reverse != keys.getLsbD 1
    let size : Nat := (l - q.pedal.deadBand) * q.pedal.gain / 16
    let m : Int := if l ≤ q.pedal.deadBand then 0 else if reverse then -(size : Int) else size
    let t := s.engine.target
    let picked := q.pickup = .pickedUp ∨ (m - t).natAbs ≤ q.common.tolerance ∨
      (∃ x, q.mapped = some x ∧ ((x < t ∧ t ≤ m) ∨ (t < x ∧ m ≤ t)))
    let active := q.pedal.deadBand < l ∨ keys &&& 7 ≠ 0
    let c := Instr.dataReport p (goodChars (portFrame 0x13 [level, keys]))
    (q.state = .attached →
      exec c s = .next (sendIfIdle ((s.withPort p { q with silence := 0, answered := true }).withCause false))) ∧
    (q.state = .enabled → ∃ u, exec c s = .next (sendIfIdle u) ∧ u.link = s.link ∧
      u.ports[p].answered = true ∧ u.ports[p].silence = 0 ∧ u.ports[p].reverse = reverse ∧
      u.ports[p].mapped = some m ∧ u.ports[p].prevMapped = q.mapped ∧ u.ports[p].state = .enabled ∧
      (active → u.ports[p].idle = 0 ∧ u.ports[p].idleSent = false) ∧
      (¬active → u.ports[p].idle = if q.idleSent then q.idle else min (q.idle + 1) 1000) ∧
      (q.drive ≠ .holding → u.ports[p].pickup = q.pickup ∧ u.ports[p].lastSent = q.lastSent ∧
        u.mail.toArbiter[p] = s.mail.toArbiter[p] ++
          (if active then [{ req := false, body := .claim }] else [])) ∧
      (q.drive = .holding →
        (picked → u.ports[p].pickup = .pickedUp) ∧ (¬picked → u.ports[p].pickup = .waiting) ∧
        u.ports[p].lastSent = (if picked then some m else q.lastSent) ∧
        u.mail.toArbiter[p] = s.mail.toArbiter[p] ++ ((if active then [PortMsg.claim] else []) ++
          (if picked ∧ q.lastSent ≠ some m then [PortMsg.setTarget m] else []) ++
          (if keys.getLsbD 0 then [PortMsg.key] else [])).map (fun x => { req := false, body := x })))

/-- The strip of a port: its baselines are acquired over eight reports and then follow the counts while nothing is touched; a
segment is touched when it stands over its baseline by the threshold, and the centroid of the touched segments, times the
gain, is the target.
How the baselines stand before and at the eighth report is the model's reading (log 17). -/
def Sys2Proof.Claims.StripBaselines : Prop :=
  ∀ (q : Port) (raw : Vector Nat 5) (k : Keys),
    let touched (i : Fin 5) : Bool := decide (q.acquired = 8) && decide (q.baselines[i] + q.strip.threshold ≤ raw[i])
    let weight (i : Fin 5) : Nat := if touched i then raw[i] - q.baselines[i] else 0
    let total := weight 0 + weight 1 + weight 2 + weight 3 + weight 4
    let moment := weight 0 * 0 + weight 1 * 64 + weight 2 * 128 + weight 3 * 192 + weight 4 * 255
    1 ≤ q.strip.threshold →
    (q.acquired < 7 → (q.trackStrip raw).acquired = q.acquired + 1 ∧
      (∀ i : Fin 5, (q.trackStrip raw).sums[i] = q.sums[i] + raw[i]) ∧ (q.trackStrip raw).baselines = q.baselines) ∧
    (q.acquired = 7 → (q.trackStrip raw).acquired = 8 ∧
      ∀ i : Fin 5, (q.trackStrip raw).baselines[i] = (q.sums[i] + raw[i]) / 8) ∧
    (q.acquired = 8 → (∃ i, touched i = true) → q.trackStrip raw = q) ∧
    (q.acquired = 8 → (∀ i, touched i = false) → ∀ i : Fin 5, (q.trackStrip raw).baselines[i] =
      if q.baselines[i] < raw[i] ∧ raw[i] - q.baselines[i] < q.strip.threshold / 2 then q.baselines[i] + 1
      else if raw[i] < q.baselines[i] ∧ q.baselines[i] - raw[i] < q.strip.threshold / 2 then q.baselines[i] - 1
      else q.baselines[i]) ∧
    ((∃ i, touched i = true) →
      q.mapReport (.strip raw k) = some ((((moment / total : Nat) - 128 : Int) * q.strip.gain).tdiv 16)) ∧
    ((∀ i, touched i = false) →
      q.mapReport (.strip raw k) = (if q.strip.style = .zero then some 0 else none))

/-- A data report of a STRIP met by a listening port of that kind: it answers the poll and moves the baselines. In
ATTACHED it does nothing more. In ENABLED the mapped target is formed against the baselines as they stood (log 21), none
where nothing is touched in style HOLD; a touch, a START_STOP or a CLAIM press is active, a REVERSE bit is ignored; and a
holder sends a mapped target as a pedal's is sent. When a poll counts as inactive is the model's reading (log 20). -/
def Sys2Proof.Claims.StripReport : Prop :=
  ∀ (s : State) (p : PortNo) (raw : Vector Nat 5) (keys : Byte), s.ports[p].quiet = true →
    s.ports[p].listens s.now = true → s.ports[p].rx = .hunting → s.ports[p].kind = some .strip →
    (∀ i : Fin 5, raw[i] ≤ 4095) →
    let q := s.ports[p]
    let touched (i : Fin 5) : Bool := decide (q.acquired = 8) && decide (q.baselines[i] + q.strip.threshold ≤ raw[i])
    let weight (i : Fin 5) : Nat := if touched i then raw[i] - q.baselines[i] else 0
    let total := weight 0 + weight 1 + weight 2 + weight 3 + weight 4
    let moment := weight 0 * 0 + weight 1 * 64 + weight 2 * 128 + weight 3 * 192 + weight 4 * 255
    let any := touched 0 || touched 1 || touched 2 || touched 3 || touched 4
    let mapped : Option Int :=
      if any then some ((((moment / total : Nat) - 128 : Int) * q.strip.gain).tdiv 16)
      else if q.strip.style = .zero then some 0 else none
    let t := s.engine.target
    let near (m : Int) : Prop := (m - t).natAbs ≤ q.common.tolerance ∨
      (∃ x, q.mapped = some x ∧ ((x < t ∧ t ≤ m) ∨ (t < x ∧ m ≤ t)))
    let active := any = true ∨ keys &&& 5 ≠ 0
    let claims : List PortMsg := if active then [.claim] else []
    let press : List PortMsg := if keys.getLsbD 0 then [.key] else []
    let note (x : PortMsg) : Msg PortMsg := { req := false, body := x }
    let c := Instr.dataReport p (goodChars (portFrame 0x12 (raw.toList.flatMap two ++ [keys])))
    let moved := q.trackStrip raw
    1 ≤ q.strip.threshold →
    (q.state = .attached →
      exec c s = .next (sendIfIdle ((s.withPort p { moved with silence := 0, answered := true }).withCause false))) ∧
    (q.state = .enabled → ∃ u, exec c s = .next (sendIfIdle u) ∧ u.link = s.link ∧
      u.ports[p].answered = true ∧ u.ports[p].silence = 0 ∧ u.ports[p].state = .enabled ∧
      u.ports[p].baselines = moved.baselines ∧ u.ports[p].sums = moved.sums ∧ u.ports[p].acquired = moved.acquired ∧
      u.ports[p].reverse = q.reverse ∧ u.ports[p].mapped = mapped ∧ u.ports[p].prevMapped = q.mapped ∧
      (active → u.ports[p].idle = 0 ∧ u.ports[p].idleSent = false) ∧
      (¬active → u.ports[p].idle = if q.idleSent then q.idle else min (q.idle + 1) 1000) ∧
      (q.drive ≠ .holding → u.ports[p].pickup = q.pickup ∧ u.ports[p].lastSent = q.lastSent ∧
        u.mail.toArbiter[p] = s.mail.toArbiter[p] ++ claims.map note) ∧
      (q.drive = .holding →
        (mapped = none → u.ports[p].pickup = q.pickup ∧ u.ports[p].lastSent = q.lastSent ∧
          u.mail.toArbiter[p] = s.mail.toArbiter[p] ++ (claims ++ press).map note) ∧
        (∀ m, mapped = some m → q.pickup = .pickedUp ∨ near m →
          u.ports[p].pickup = .pickedUp ∧ u.ports[p].lastSent = some m ∧
          u.mail.toArbiter[p] = s.mail.toArbiter[p] ++
            (claims ++ (if q.lastSent = some m then [] else [PortMsg.setTarget m]) ++ press).map note) ∧
        (∀ m, mapped = some m → q.pickup = .waiting → ¬near m →
          u.ports[p].pickup = .waiting ∧ u.ports[p].lastSent = q.lastSent ∧
          u.mail.toArbiter[p] = s.mail.toArbiter[p] ++ (claims ++ press).map note)))

/-- What a port does not take leaves it and its poll as they are: whatever comes while it does not listen (DETACHED, FAULTED,
its poll answered or the next one due, log 19), and otherwise a frame with a bad check or an unknown kind, a Hello that names
no kind, a report of another kind than the port's or in IDENTIFYING, and strip counts out of range. Where the receiver goes on
after a broken frame is the model's choice (log 43). -/
def Sys2Proof.Claims.ReportsNotTaken : Prop :=
  ∀ (s : State) (p : PortNo), s.ports[p].quiet = true →
    let q := s.ports[p]
    let same := Host.Outcome.next (sendIfIdle (s.withCause false))
    (q.state = .detached ∨ q.state = .faulted ∨ q.answered = true ∨ q.nextPoll ≤ s.now → ∀ chars,
      exec (.dataReport p chars) s = same ∧ exec (.hello p chars) s = same) ∧
    (q.listens s.now = true → q.rx = .hunting →
      (∀ kind : Byte, kind ∉ [0x10, 0x11, 0x12, 0x13] →
        exec (.dataReport p (goodChars [0xC3, kind])) s = same ∧ exec (.hello p (goodChars [0xC3, kind])) s = same) ∧
      (∀ (kind check : Byte) (body : List Byte),
        (kind, body.length) ∈ [((0x10 : Byte), 1), (0x11, 2), (0x12, 11), (0x13, 2)] →
        let takes := q.state = .attached ∨ q.state = .enabled
        let counts := [u16 body 0, u16 body 2, u16 body 4, u16 body 6, u16 body 8]
        kind + body.sum + check ≠ 0 ∨
          (kind = 0x10 ∧ (u8 body 0 = 0 ∨ 3 < u8 body 0)) ∨
          (kind = 0x11 ∧ ¬(takes ∧ q.kind = some .wheel)) ∨
          (kind = 0x12 ∧ (¬(takes ∧ q.kind = some .strip) ∨ ∃ n ∈ counts, 4095 < n)) ∨
          (kind = 0x13 ∧ ¬(takes ∧ q.kind = some .pedal)) →
        exec (.dataReport p (goodChars (0xC3 :: kind :: (body ++ [check])))) s = same ∧
        exec (.hello p (goodChars (0xC3 :: kind :: (body ++ [check])))) s = same))

/-- What a port makes of a Hello and of the reports of the three kinds, and what it does not take. -/
def Obligations.PortReports : Prop :=
  Claims.Hello ∧ Claims.WheelReport ∧ Claims.PedalReport ∧ Claims.StripBaselines ∧ Claims.StripReport ∧ Claims.ReportsNotTaken

/-- The standing a port takes: a grant clears last sent and sets the pickup state, and the pattern is found again, a change
restarting the phase. Lamp Flash and Lamp Flash End set the flash of a port.
That a port without a kind is picked up is the model's reading (log 26). -/
def Obligations.StandingAndFlash : Prop :=
  ∀ (s : State) (p : PortNo) (req : Bool), s.ports[p].quiet = true →
    let q := s.ports[p]
    let auto (x : Port) : Pattern :=
      if x.flash = true ∧ x.cls = .presenter then { on := 5, off := 5 }
      else if x.drive = .holding then (if x.pickup = .pickedUp then { on := 1, off := 0 } else { on := 10, off := 10 })
      else if x.drive = .waiting then { on := 25, off := 25 }
      else { on := 0, off := 0 }
    let lit (x : Port) : Port :=
      let pat := x.lampOverride.getD (auto x)
      if pat = x.pattern then x else { x with pattern := pat, phase := 0 }
    (∀ d c rest, s.mail.standing[p] = { req := req, body := (d, c) } :: rest →
      let granted := d = .holding ∧ q.drive ≠ .holding
      let picks := (q.kind = some .strip ∨ q.kind = some .pedal) ∧ 0 < q.common.tolerance
      exec (.standingReport p) s = .next (sendIfIdle { s with
        cause := false
        mail := { s.mail with standing := s.mail.standing.set p.val rest p.isLt }
        ports := s.ports.set p.val (lit { q with
          drive := d, cls := c
          lastSent := if granted then none else q.lastSent
          pickup := if granted then (if picks then .waiting else .pickedUp) else q.pickup }) p.isLt })) ∧
    (∀ rest, s.mail.flash[p] = { req := req, body := true } :: rest →
      exec (.lampFlash p) s = .next (sendIfIdle { s with
        cause := false
        mail := { s.mail with flash := s.mail.flash.set p.val rest p.isLt }
        ports := s.ports.set p.val (lit { q with flash := true }) p.isLt })) ∧
    (∀ rest, s.mail.flash[p] = { req := req, body := false } :: rest →
      exec (.lampFlashEnd p) s = .next (sendIfIdle { s with
        cause := false
        mail := { s.mail with flash := s.mail.flash.set p.val rest p.isLt }
        ports := s.ports.set p.val (lit { q with flash := false }) p.isLt }))

/-- Enable Port, Disable Port and Reset Port: Range for a port above 3, State in another state than the one each needs; the
port state and what goes with it, and the message to the Drive Arbiter. -/
def Sys2Proof.Claims.PortStateRequests : Prop :=
  ∀ (s : State) (b : Byte),
    let t := s.withCause true
    (4 ≤ b.toNat →
      (Serving s 0x48 [b] → exec .enablePort s = .next (refused s .range)) ∧
      (Serving s 0x49 [b] → exec .disablePort s = .next (refused s .range)) ∧
      (Serving s 0x4A [b] → exec .resetPort s = .next (refused s .range))) ∧
    (∀ p : PortNo, b.toNat = p.val →
      let q := s.ports[p]
      (Serving s 0x48 [b] →
        (q.state ≠ .attached → exec .enablePort s = .next (refused s .state)) ∧
        (q.state = .attached → exec .enablePort s = .next (answered s .done []
          (sendArbiter p .ready (t.withPort p
            { q with state := .enabled, idle := 0, idleSent := false, releaseDue := false }))))) ∧
      (Serving s 0x49 [b] →
        (q.state ≠ .enabled → exec .disablePort s = .next (refused s .state)) ∧
        (q.state = .enabled → exec .disablePort s = .next (answered s .done []
          (sendArbiter p .gone (t.withPort p
            { q with state := .attached, mapped := none, prevMapped := none, lastSent := none }))))) ∧
      (Serving s 0x4A [b] →
        ∃ x, exec .resetPort s = .next (answered s .done []
            ((if q.state = .enabled then fun v => sendArbiter p .gone (setChange .enable p v) else id)
              ((if q.state = .detached then id else setChange .connect p) (t.withPort p x)))) ∧
          x.state = .detached ∧ x.supply = false ∧ x.holdOff = some (s.now + 100000) ∧ x.fault = none ∧
          x.kind = none ∧ x.acquired = 0 ∧ x.baselines = Vector.replicate 5 0 ∧ x.reverse = false ∧
          x.mapped = none ∧ x.lastSent = none ∧ x.common = q.common ∧ x.wheel = q.wheel ∧ x.strip = q.strip ∧
          x.pedal = q.pedal ∧ x.lampOverride = q.lampOverride ∧ x.drive = q.drive ∧ x.cls = q.cls ∧
          x.changeByte = q.changeByte))

/-- Set Port: Range for a value out of its range, a tag above PEDAL, and a part of another kind than the port's; State for a
part while the port knows no kind; otherwise the common record, and the record of the part given, are replaced. -/
def Sys2Proof.Claims.PortRecords : Prop :=
  ∀ (s : State) (body : List Byte), Serving s 0x4B body →
    (4 ≤ u8 body 0 → exec .setPort s = .next (refused s .range)) ∧
    (∀ p : PortNo, u8 body 0 = p.val →
      let q := s.ports[p]
      let common : CommonSettings :=
        { autoEnable := u8 body 1 = 1, releaseTime := u16 body 2, tolerance := u8 body 4 }
      let commonOk := u8 body 1 ≤ 1 ∧ 10 ≤ u16 body 2 ∧ u16 body 2 ≤ 1000 ∧ u8 body 4 ≤ 64
      let tag := u8 body 5
      let wheelOk := u8 body 6 ≤ 1 ∧ 1 ≤ u8 body 7 ∧ u8 body 7 ≤ 64 ∧ 1 ≤ u16 body 8 ∧ u16 body 8 ≤ 256
      let stripOk := u8 body 6 ≤ 1 ∧ 16 ≤ u16 body 7 ∧ u16 body 7 ≤ 1023 ∧ 1 ≤ u8 body 9 ∧ u8 body 9 ≤ 64
      let pedalOk := u8 body 6 ≤ 64 ∧ 1 ≤ u8 body 7 ∧ u8 body 7 ≤ 64
      let partOk := tag = 0 ∨ (tag = 1 ∧ wheelOk) ∨ (tag = 2 ∧ stripOk) ∨ (tag = 3 ∧ pedalOk)
      (¬(commonOk ∧ partOk) → exec .setPort s = .next (refused s .range)) ∧
      (commonOk → partOk → tag ≠ 0 →
        (q.kind = none → exec .setPort s = .next (refused s .state)) ∧
        (∀ k, q.kind = some k → tag ≠ (match k with | .wheel => 1 | .strip => 2 | .pedal => 3) →
          exec .setPort s = .next (refused s .range))) ∧
      (commonOk → tag = 0 →
        exec .setPort s = .next (answered s .done [] (s.withPort p { q with common := common }))) ∧
      (commonOk → tag = 1 → wheelOk → q.kind = some .wheel →
        exec .setPort s = .next (answered s .done [] (s.withPort p { q with
          common := common
          wheel := { style := if u8 body 6 = 0 then .speed else .jog, speedStep := u8 body 7
                     jogSize := u16 body 8 } }))) ∧
      (commonOk → tag = 2 → stripOk → q.kind = some .strip →
        exec .setPort s = .next (answered s .done [] (s.withPort p { q with
          common := common
          strip := { style := if u8 body 6 = 0 then .hold else .zero, threshold := u16 body 7
                     gain := u8 body 9 } }))) ∧
      (commonOk → tag = 3 → pedalOk → q.kind = some .pedal →
        exec .setPort s = .next (answered s .done [] (s.withPort p { q with
          common := common, pedal := { deadBand := u8 body 6, gain := u8 body 7 } }))))

/-- Set Lamp: Range for a port above 3, a code that is neither AUTO nor a pattern, and a time above 255; otherwise the override
is taken or removed, and the pattern in force is found again, a change restarting the phase. -/
def Sys2Proof.Claims.PortLamp : Prop :=
  ∀ (s : State) (body : List Byte), Serving s 0x4C body →
    let auto (x : Port) : Pattern :=
      if x.flash = true ∧ x.cls = .presenter then { on := 5, off := 5 }
      else if x.drive = .holding then (if x.pickup = .pickedUp then { on := 1, off := 0 } else { on := 10, off := 10 })
      else if x.drive = .waiting then { on := 25, off := 25 }
      else { on := 0, off := 0 }
    let lit (x : Port) : Port :=
      let pat := x.lampOverride.getD (auto x)
      if pat = x.pattern then x else { x with pattern := pat, phase := 0 }
    (4 ≤ u8 body 0 ∨ 1 < u8 body 1 ∨ (u8 body 1 = 1 ∧ (255 < u16 body 2 ∨ 255 < u16 body 4)) →
      exec .setLamp s = .next (refused s .range)) ∧
    (∀ p : PortNo, u8 body 0 = p.val →
      (u8 body 1 = 0 → exec .setLamp s = .next (answered s .done []
        (s.withPort p (lit { s.ports[p] with lampOverride := none })))) ∧
      (u8 body 1 = 1 → u16 body 2 ≤ 255 → u16 body 4 ≤ 255 → exec .setLamp s = .next (answered s .done []
        (s.withPort p (lit { s.ports[p] with
          lampOverride := some { on := u16 body 2, off := u16 body 4 } })))))

/-- Query Port: Range for a port above 3 and for a set that names anything but the three flags; otherwise the reply gives the
state, fault cause, kind and change flags as they stand, the common record and those of the three kinds, the standing and
class, the pickup state, the latched reverse, whether an override stands, the pattern in force, the acquisition count and the
baselines, and the flags named are then cleared. The clearing is the next QUERY_PORT: other events may be taken before it, no
request is, and it removes a flag set in between too. With no flag named nothing is left to do. The order of the fields is
the model's reading (log 15), the two steps its way to let an event come between (log 42). -/
def Sys2Proof.Claims.PortQueried : Prop :=
  ∀ s : State,
    let cleared (q : Port) (set : Byte) : Port := { q with
      connectChange := q.connectChange && !set.getLsbD 0
      enableChange := q.enableChange && !set.getLsbD 1
      faultChange := q.faultChange && !set.getLsbD 2 }
    (∀ b set : Byte, Serving s 0x4D [b, set] →
      (4 ≤ b.toNat ∨ 7 < set.toNat → exec .queryPort s = .next (refused s .range)) ∧
      (∀ p : PortNo, b.toNat = p.val → set.toNat ≤ 7 →
        let q := s.ports[p]
        let results : List Byte :=
          ([match q.state with | .detached => 0 | .identifying => 1 | .attached => 2 | .enabled => 3 | .faulted => 4,
            match q.fault with | none => 0 | some .supply => 1 | some .silent => 2,
            match q.kind with | none => 0 | some .wheel => 1 | some .strip => 2 | some .pedal => 3,
            byte (q.connectChange.toNat + 2 * q.enableChange.toNat + 4 * q.faultChange.toNat),
            flagByte q.common.autoEnable] : List Byte) ++ two q.common.releaseTime ++
          ([byte q.common.tolerance, match q.wheel.style with | .speed => 0 | .jog => 1,
            byte q.wheel.speedStep] : List Byte) ++ two q.wheel.jogSize ++
          ([match q.strip.style with | .hold => 0 | .zero => 1] : List Byte) ++ two q.strip.threshold ++
          ([byte q.strip.gain, byte q.pedal.deadBand, byte q.pedal.gain,
            match q.drive with | .idle => 0 | .waiting => 1 | .holding => 2 | .barred => 3,
            match q.cls with | .operator => 0 | .presenter => 1,
            match q.pickup with | .waiting => 0 | .pickedUp => 1,
            flagByte q.reverse, flagByte q.lampOverride.isSome] : List Byte) ++
          two q.pattern.on ++ two q.pattern.off ++ [byte q.acquired] ++ two q.baselines[0] ++ two q.baselines[1] ++
          two q.baselines[2] ++ two q.baselines[3] ++ two q.baselines[4]
        exec .queryPort s = .next (answered s .done results
          (s.withPort p { q with ackDue := if set = 0 then none else some set })))) ∧
    ((∃ p : PortNo, s.ports[p].ackDue ≠ none) →
      s.canTake = false ∧ ∃ t, exec .queryPort s = .next (sendIfIdle t) ∧
        (∀ p : PortNo, t.ports[p] = match s.ports[p].ackDue with
          | some set => { cleared s.ports[p] set with ackDue := none }
          | none => s.ports[p]) ∧
        t = { s with cause := false, ports := t.ports })
/-! ### The Frame Clock (R155 to R162) -/

/-- The six port requests. -/
def Obligations.PortRequests : Prop :=
  Claims.PortStateRequests ∧ Claims.PortRecords ∧ Claims.PortLamp ∧ Claims.PortQueried

/-- A frame starts with the counter one higher, the time noted and the interval in force from now on; its start goes to the
Scroll Engine and the Cue Monitor with the counter. It is made by the interval running out in a free-running state, by a
pulse in LOCKED at least half a period after the last start, and by the flywheel; the third flywheel frame ends LOCKED.
What the run and the last pulse hold in LOCKED is the model's reading (log 28). -/
def Obligations.FrameStarts : Prop :=
  ∀ s : State,
    let c := s.clock
    let interval : Nat := ((c.period : Int) + c.trim).toNat
    let begun := { c with counter := c.counter + 1, lastStart := s.now, interval := interval }
    let sent := { s.mail with
      engineFrames := s.mail.engineFrames ++ [{ req := false, body := c.counter + 1 }]
      cueFrames := s.mail.cueFrames ++ [{ req := false, body := c.counter + 1 }] }
    let t := s.withCause false
    exec .freeRunFrameStart s = .next
      (sendIfIdle (if c.lock ≠ .locked ∧ c.lastStart + c.interval ≤ s.now then (t.withClock begun).withMail sent else t)) ∧
    exec .flywheelFrame s = .next
      (sendIfIdle (if c.lock = .locked ∧ c.lastStart + c.period + c.period / 4 ≤ s.now then
        if c.flywheel = 2 then
          raise .reference ((t.withClock { begun with
            lock := .lost, lastPulse := none, goodRun := 0, flywheel := 0, event := some .lost }).withMail sent)
        else (t.withClock { begun with flywheel := c.flywheel + 1 }).withMail sent
      else t)) ∧
    (c.mode = .free → exec .referencePulse s = .next (sendIfIdle t)) ∧
    (c.mode = .lock → c.lock = .locked → exec .referencePulse s = .next
      (sendIfIdle (if c.lastStart + c.period / 2 ≤ s.now then
        (t.withClock { begun with lastPulse := some s.now, flywheel := 0 }).withMail sent
      else t.withClock { c with lastPulse := some s.now }))) ∧
    (c.mode = .lock → c.lock = .hunting ∨ c.lock = .lost →
      (c.lastPulse = none → exec .referencePulse s = .next (sendIfIdle (t.withClock { c with lastPulse := some s.now }))) ∧
      (∀ last, c.lastPulse = some last →
        let good := c.period - c.period / 8 ≤ s.now - last ∧ s.now - last ≤ c.period + c.period / 8
        let run := if good then c.goodRun + 1 else 0
        (run ≠ 2 → exec .referencePulse s = .next
          (sendIfIdle (t.withClock { c with lastPulse := some s.now, goodRun := run }))) ∧
        (run = 2 →
          let locked := { c with
            lastPulse := some s.now, goodRun := 2, lock := .locked, flywheel := 0
            event := if c.lock = .lost then some .found else c.event }
          let u := if c.lock = .lost then raise .reference (t.withClock locked) else t.withClock locked
          exec .referencePulse s = .next
            (sendIfIdle (if c.lastStart + c.period / 2 ≤ s.now then
              (u.withClock { locked with
                counter := c.counter + 1, lastStart := s.now, interval := interval }).withMail sent
            else u)))))

/-- Set Frame and Set Reference: Range for a period or a mode out of range; a change of period in mode LOCK restarts
hunting; LOCK begins hunting and FREE ends it; what is in force already changes nothing. Leaving LOCKED times the next
frame by P + trim from the last. Query Frame gives the clock as it stands (the layout is the model's reading, log 15). -/
def Obligations.ClockRequests : Prop :=
  ∀ s : State,
    let c := s.clock
    (∀ body, Serving s 0x58 body →
      let period := u16 body 0
      let trim := s8 body 2
      let fresh : Nat := ((period : Int) + trim).toNat
      (period < 8000 ∨ 42000 < period → exec .setFrame s = .next (refused s .range)) ∧
      (8000 ≤ period → period ≤ 42000 →
        (period = c.period ∨ c.mode = .free →
          exec .setFrame s = .next (answered s .done [] (s.withClock { c with period := period, trim := trim }))) ∧
        (period ≠ c.period → c.mode = .lock →
          exec .setFrame s = .next (answered s .done [] (s.withClock { c with
            period := period, trim := trim, lock := .hunting, lastPulse := none, goodRun := 0, flywheel := 0
            interval := if c.lock = .locked then fresh else c.interval }))))) ∧
    (∀ b : Byte, Serving s 0x59 [b] →
      (2 ≤ b.toNat → exec .setReference s = .next (refused s .range)) ∧
      (b = c.mode.code → exec .setReference s = .next (answered s .done [] s)) ∧
      (b = 1 → c.mode = .free → exec .setReference s = .next (answered s .done [] (s.withClock { c with
        mode := .lock, lock := .hunting, lastPulse := none, goodRun := 0, flywheel := 0 }))) ∧
      (b = 0 → c.mode = .lock → exec .setReference s = .next (answered s .done [] (s.withClock { c with
        mode := .free, lock := .free, lastPulse := none, goodRun := 0, flywheel := 0
        interval := if c.lock = .locked then ((c.period : Int) + c.trim).toNat else c.interval })))) ∧
    (Serving s 0x5A [] →
      exec .queryFrame s = .next (answered s .done
        (two c.period ++ [sbyte c.trim, c.mode.code, c.lock.code] ++ twoOf c.counter ++
          [byte c.goodRun, byte c.flywheel, refEventCode c.event]) s))

/-! ### The Head Links (R164 to R176) -/

/-- A publish taken by a head that is UP and enabled: a view with the frame number of the publish and the settings of the
head enters the history, the older of two leaving it, and its record joins the transmit list, in the place of one still
waiting. Its table has rows + 1 entries: the source block at the reading row, above it the lines behind and below it the
lines ahead, each line with its generation, one GAP where a gap ended them, BLANK beyond. LIVE goes on through the eligible
stories, PREVIEW stays within the block's own READY story. With a VOID source, and one whose block has left its place, every
entry is BLANK and the slug empty. In DOWN or disabled the publish changes nothing. -/
def Sys2Proof.Claims.ViewBuild : Prop :=
  ∀ (s : State) (h : HeadNo) (req : Bool) (x : Publish) (rest : List (Msg Publish)),
    s.mail.publish[h] = { req := req, body := x } :: rest →
    let hd := s.heads[h]
    let t := { s with cause := false, mail := { s.mail with publish := s.mail.publish.set h.val rest h.isLt } }
    let rows := hd.settings.rows
    let reading := hd.settings.readingRow
    let source : Option Nat := match hd.settings.source with
      | .live => x.live.map (·.block)
      | .preview => x.preview
    let line (b : Nat) : RowEntry := .line b (s.store.read b).gen
    let side (ls : List Nat) (gap : Bool) (i : Nat) : RowEntry := match ls[i]? with
      | some b => line b
      | none => if gap = true ∧ i = ls.length then .gap else .blank
    (hd.up = false ∨ hd.settings.enable = false → exec (.viewBuild h) s = .next (sendIfIdle t)) ∧
    (hd.up = true → hd.settings.enable = true → reading < rows →
      ∃ v : View, exec (.viewBuild h) s = .next (sendIfIdle (t.withHead h { hd with
          history := (if hd.history.any (fun w => w.frame = x.frame) then
              hd.history.filter (fun w => w.frame ≠ x.frame)
            else if hd.history.length < 2 then hd.history else hd.history.drop 1) ++ [v]
          queue := if hd.queue.any HeadFrame.isView then
              hd.queue.map (fun f => if f.isView then .view v else f)
            else hd.queue ++ [.view v] })) ∧
        v.frame = x.frame ∧ v.source = hd.settings.source ∧ v.rows = rows ∧ v.readingRow = reading ∧
        v.mirror = hd.settings.mirror ∧ v.cue = hd.cueFlag ∧
        v.stopped = decide (x.motion = .halted) ∧ v.holderClass = s.arbiter.holderClass ∧
        v.offset = (if hd.settings.source = .live then (x.live.map (·.sub)).getD 0 else 0) ∧
        v.table.length = rows + 1 ∧
        (∀ (b : Nat) (k : Slot) (n : Nat) (r : Reach), source = some b → s.script.locate b = some (k, n) →
          let ls := s.script.stories[k].lines
          (hd.settings.source = .live → s.script.reach b = some r) →
          (hd.settings.source = .preview → s.script.stories[k].state = .ready ∧
            r = { back := (ls.take n).reverse, backGap := false, fore := ls.drop (n + 1), foreGap := false }) →
          v.slug = s.script.stories[k].slug ∧ v.table[reading]? = some (line b) ∧
          (∀ i, i < reading → v.table[reading - 1 - i]? = some (side r.back r.backGap i)) ∧
          (∀ i, i < rows - reading → v.table[reading + 1 + i]? = some (side r.fore r.foreGap i))) ∧
        ((∀ b, source = some b → (hd.settings.source = .live → s.script.reach b = none) ∧
            (hd.settings.source = .preview →
              ∀ k n, s.script.locate b = some (k, n) → s.script.stories[k].state ≠ .ready)) →
          v.slug = [] ∧ v.table = List.replicate (rows + 1) .blank))

/-- Frames from a renderer, their characters met by a hunting receiver: READY brings a DOWN link UP with Head Changed and
restarts the silence time of one that is UP; a FETCH in UP is answered with one reply, but with none while 16 wait, and
restarts the silence time unless the entry into DOWN is due already; a frame with a bad check, of an unknown kind, or a FETCH
in DOWN changes nothing but the receiver. That a FETCH is answered within its own command is the model's reading (log 30),
and that a READY taken when DOWN is due keeps the link UP is its choice (log 45). -/
def Sys2Proof.Claims.RendererFrames : Prop :=
  ∀ (s : State) (h : HeadNo), s.heads[h].rx.state = .hunting →
    let hd := { s.heads[h] with rx := { state := .hunting, lastAt := s.now } }
    let t := s.withCause false
    let heard := if hd.silentSince + 300000 ≤ s.now then hd.silentSince else s.now
    exec (.headReady h (goodChars (linkFrame 0x01 []))) s = .next
      (sendIfIdle (if hd.up then t.withHead h { hd with silentSince := s.now }
       else raise .headChanged (t.withHead h { hd with up := true, silentSince := s.now, history := [] }))) ∧
    (∀ f1 f0 row : Byte,
      let c := Instr.fetch h (goodChars (linkFrame 0x02 [f1, f0, row]))
      let frame : Half := f1 ++ f0
      (hd.up = false → exec c s = .next (sendIfIdle (t.withHead h hd))) ∧
      (hd.up = true → 16 ≤ (hd.queue.filter (fun f => !f.isView)).length →
        exec c s = .next (sendIfIdle (t.withHead h { hd with silentSince := heard }))) ∧
      (hd.up = true → (hd.queue.filter (fun f => !f.isView)).length < 16 →
        ∃ out, exec c s = .next (sendIfIdle (t.withHead h { hd with
            silentSince := heard, queue := hd.queue ++ [.reply frame row.toNat out] })) ∧
          ((∀ v ∈ hd.history, v.frame ≠ frame) → out = .expired) ∧
          (∀ v, hd.history.find? (fun w => w.frame = frame) = some v →
            (v.rows + 1 ≤ row.toNat → out = .blank) ∧
            (row.toNat ≤ v.rows →
              (v.table[row.toNat]? = some .blank → out = .blank) ∧ (v.table[row.toNat]? = some .gap → out = .gap) ∧
              (∀ b gen, v.table[row.toNat]? = some (.line b gen) →
                (∀ r, s.store.read b = { gen := gen, record := some r } → out = .text gen r) ∧
                ((s.store.read b).gen ≠ gen ∨ (s.store.read b).record = none → out = .changed)))))) ∧
    (∀ (kind : Byte) (body : List Byte) (check : Byte), body.length ≤ 199 →
      check ≠ crc8 (byte (body.length + 1) :: kind :: body) ∨ (kind ≠ 0x01 ∧ kind ≠ 0x02) →
      exec (.headFrameDiscard h (goodChars (0xA5 :: byte (body.length + 1) :: kind :: body ++ [check]))) s =
        .next (sendIfIdle (t.withHead h hd)))

/-- 300 ms of silence take a link DOWN, its history and transmit list emptied, with Head Changed; the transmitter takes the
next frame of its list; Cue Flag and Cue Flag End set and clear the flag. That a link that goes DOWN keeps the frame it is
receiving, and a fetch reply begun, is the model's choice (log 54). -/
def Sys2Proof.Claims.HeadEvents : Prop :=
  ∀ (s : State) (h : HeadNo),
    let hd := s.heads[h]
    let t := s.withCause false
    exec (.headSilenceTimeout h) s = .next
      (sendIfIdle (if hd.up = true ∧ hd.silentSince + 300000 ≤ s.now then
        raise .headChanged (t.withHead h { hd with up := false, history := [], queue := [] }) else t)) ∧
    exec (.headTransmit h) s =
      .next (sendIfIdle (t.withHead h { hd with sending := hd.queue.head?, queue := hd.queue.tail })) ∧
    (∀ req rest, s.mail.cueFlag[h] = { req := req, body := true } :: rest →
      exec (.cueFlag h) s = .next (sendIfIdle ((t.withMail { s.mail with
        cueFlag := s.mail.cueFlag.set h.val rest h.isLt }).withHead h { hd with cueFlag := true }))) ∧
    (∀ req rest, s.mail.cueFlag[h] = { req := req, body := false } :: rest →
      exec (.cueFlagEnd h) s = .next (sendIfIdle ((t.withMail { s.mail with
        cueFlag := s.mail.cueFlag.set h.val rest h.isLt }).withHead h { hd with cueFlag := false })))

/-- What a Head Link does with a publish, with frames from its renderer, with silence and with the cue flag. -/
def Obligations.HeadLinks : Prop :=
  Claims.ViewBuild ∧ Claims.RendererFrames ∧ Claims.HeadEvents

/-- Set Head: Range for a value out of range, the settings replaced otherwise. Query Head: the link state, the settings, the
cue flag and the frame numbers of the views, oldest first (the layout is the model's reading, log 15). -/
def Obligations.HeadRequests : Prop :=
  ∀ s : State,
    (∀ body, Serving s 0x60 body →
      let inRange := u8 body 1 ≤ 1 ∧ u8 body 2 ≤ 1 ∧ u8 body 3 ≤ 1 ∧ 4 ≤ u8 body 4 ∧ u8 body 4 ≤ 24 ∧
        u8 body 5 < u8 body 4
      (4 ≤ u8 body 0 ∨ ¬inRange → exec .setHead s = .next (refused s .range)) ∧
      (∀ h : HeadNo, u8 body 0 = h.val → inRange →
        exec .setHead s = .next (answered s .done [] (s.withHead h { s.heads[h] with settings :=
          { enable := u8 body 1 = 1, source := if u8 body 2 = 0 then .live else .preview, mirror := u8 body 3 = 1
            rows := u8 body 4, readingRow := u8 body 5 } })))) ∧
    (∀ b : Byte, Serving s 0x61 [b] →
      (4 ≤ b.toNat → exec .queryHead s = .next (refused s .range)) ∧
      (∀ h : HeadNo, b.toNat = h.val →
        let hd := s.heads[h]
        exec .queryHead s = .next (answered s .done
          ([flagByte hd.up, flagByte hd.settings.enable, hd.settings.source.code, flagByte hd.settings.mirror,
            byte hd.settings.rows, byte hd.settings.readingRow, flagByte hd.cueFlag] ++
            hd.history.flatMap (fun v => twoOf v.frame)) s)))

end
end

