-- ==== Sys2Proof/Laws/State.lean ====
section
/-! SUPPORT. One lemma for each field and each replacement of a part of the state. -/

namespace Sys2Proof.Machine

variable (s : State)

section withStore
variable (x : TextStore)
@[simp] theorem State.withStore_store : (s.withStore x).store = x := rfl
@[simp] theorem State.withStore_script : (s.withStore x).script = s.script := rfl
@[simp] theorem State.withStore_engine : (s.withStore x).engine = s.engine := rfl
@[simp] theorem State.withStore_arbiter : (s.withStore x).arbiter = s.arbiter := rfl
@[simp] theorem State.withStore_ports : (s.withStore x).ports = s.ports := rfl
@[simp] theorem State.withStore_cues : (s.withStore x).cues = s.cues := rfl
@[simp] theorem State.withStore_clock : (s.withStore x).clock = s.clock := rfl
@[simp] theorem State.withStore_heads : (s.withStore x).heads = s.heads := rfl
@[simp] theorem State.withStore_link : (s.withStore x).link = s.link := rfl
@[simp] theorem State.withStore_mail : (s.withStore x).mail = s.mail := rfl
@[simp] theorem State.withStore_now : (s.withStore x).now = s.now := rfl
@[simp] theorem State.withStore_cause : (s.withStore x).cause = s.cause := rfl
@[simp] theorem State.withStore_pending : (s.withStore x).pending = s.pending := rfl
end withStore

section withScript
variable (x : ScriptTable)
@[simp] theorem State.withScript_store : (s.withScript x).store = s.store := rfl
@[simp] theorem State.withScript_script : (s.withScript x).script = x := rfl
@[simp] theorem State.withScript_engine : (s.withScript x).engine = s.engine := rfl
@[simp] theorem State.withScript_arbiter : (s.withScript x).arbiter = s.arbiter := rfl
@[simp] theorem State.withScript_ports : (s.withScript x).ports = s.ports := rfl
@[simp] theorem State.withScript_cues : (s.withScript x).cues = s.cues := rfl
@[simp] theorem State.withScript_clock : (s.withScript x).clock = s.clock := rfl
@[simp] theorem State.withScript_heads : (s.withScript x).heads = s.heads := rfl
@[simp] theorem State.withScript_link : (s.withScript x).link = s.link := rfl
@[simp] theorem State.withScript_mail : (s.withScript x).mail = s.mail := rfl
@[simp] theorem State.withScript_now : (s.withScript x).now = s.now := rfl
@[simp] theorem State.withScript_cause : (s.withScript x).cause = s.cause := rfl
@[simp] theorem State.withScript_pending : (s.withScript x).pending = s.pending := rfl
end withScript

section withEngine
variable (x : Engine)
@[simp] theorem State.withEngine_store : (s.withEngine x).store = s.store := rfl
@[simp] theorem State.withEngine_script : (s.withEngine x).script = s.script := rfl
@[simp] theorem State.withEngine_engine : (s.withEngine x).engine = x := rfl
@[simp] theorem State.withEngine_arbiter : (s.withEngine x).arbiter = s.arbiter := rfl
@[simp] theorem State.withEngine_ports : (s.withEngine x).ports = s.ports := rfl
@[simp] theorem State.withEngine_cues : (s.withEngine x).cues = s.cues := rfl
@[simp] theorem State.withEngine_clock : (s.withEngine x).clock = s.clock := rfl
@[simp] theorem State.withEngine_heads : (s.withEngine x).heads = s.heads := rfl
@[simp] theorem State.withEngine_link : (s.withEngine x).link = s.link := rfl
@[simp] theorem State.withEngine_mail : (s.withEngine x).mail = s.mail := rfl
@[simp] theorem State.withEngine_now : (s.withEngine x).now = s.now := rfl
@[simp] theorem State.withEngine_cause : (s.withEngine x).cause = s.cause := rfl
@[simp] theorem State.withEngine_pending : (s.withEngine x).pending = s.pending := rfl
end withEngine

section withArbiter
variable (x : Arbiter)
@[simp] theorem State.withArbiter_store : (s.withArbiter x).store = s.store := rfl
@[simp] theorem State.withArbiter_script : (s.withArbiter x).script = s.script := rfl
@[simp] theorem State.withArbiter_engine : (s.withArbiter x).engine = s.engine := rfl
@[simp] theorem State.withArbiter_arbiter : (s.withArbiter x).arbiter = x := rfl
@[simp] theorem State.withArbiter_ports : (s.withArbiter x).ports = s.ports := rfl
@[simp] theorem State.withArbiter_cues : (s.withArbiter x).cues = s.cues := rfl
@[simp] theorem State.withArbiter_clock : (s.withArbiter x).clock = s.clock := rfl
@[simp] theorem State.withArbiter_heads : (s.withArbiter x).heads = s.heads := rfl
@[simp] theorem State.withArbiter_link : (s.withArbiter x).link = s.link := rfl
@[simp] theorem State.withArbiter_mail : (s.withArbiter x).mail = s.mail := rfl
@[simp] theorem State.withArbiter_now : (s.withArbiter x).now = s.now := rfl
@[simp] theorem State.withArbiter_cause : (s.withArbiter x).cause = s.cause := rfl
@[simp] theorem State.withArbiter_pending : (s.withArbiter x).pending = s.pending := rfl
end withArbiter

section withCues
variable (x : CueMonitor)
@[simp] theorem State.withCues_store : (s.withCues x).store = s.store := rfl
@[simp] theorem State.withCues_script : (s.withCues x).script = s.script := rfl
@[simp] theorem State.withCues_engine : (s.withCues x).engine = s.engine := rfl
@[simp] theorem State.withCues_arbiter : (s.withCues x).arbiter = s.arbiter := rfl
@[simp] theorem State.withCues_ports : (s.withCues x).ports = s.ports := rfl
@[simp] theorem State.withCues_cues : (s.withCues x).cues = x := rfl
@[simp] theorem State.withCues_clock : (s.withCues x).clock = s.clock := rfl
@[simp] theorem State.withCues_heads : (s.withCues x).heads = s.heads := rfl
@[simp] theorem State.withCues_link : (s.withCues x).link = s.link := rfl
@[simp] theorem State.withCues_mail : (s.withCues x).mail = s.mail := rfl
@[simp] theorem State.withCues_now : (s.withCues x).now = s.now := rfl
@[simp] theorem State.withCues_cause : (s.withCues x).cause = s.cause := rfl
@[simp] theorem State.withCues_pending : (s.withCues x).pending = s.pending := rfl
end withCues

section withClock
variable (x : FrameClock)
@[simp] theorem State.withClock_store : (s.withClock x).store = s.store := rfl
@[simp] theorem State.withClock_script : (s.withClock x).script = s.script := rfl
@[simp] theorem State.withClock_engine : (s.withClock x).engine = s.engine := rfl
@[simp] theorem State.withClock_arbiter : (s.withClock x).arbiter = s.arbiter := rfl
@[simp] theorem State.withClock_ports : (s.withClock x).ports = s.ports := rfl
@[simp] theorem State.withClock_cues : (s.withClock x).cues = s.cues := rfl
@[simp] theorem State.withClock_clock : (s.withClock x).clock = x := rfl
@[simp] theorem State.withClock_heads : (s.withClock x).heads = s.heads := rfl
@[simp] theorem State.withClock_link : (s.withClock x).link = s.link := rfl
@[simp] theorem State.withClock_mail : (s.withClock x).mail = s.mail := rfl
@[simp] theorem State.withClock_now : (s.withClock x).now = s.now := rfl
@[simp] theorem State.withClock_cause : (s.withClock x).cause = s.cause := rfl
@[simp] theorem State.withClock_pending : (s.withClock x).pending = s.pending := rfl
end withClock

section withLink
variable (x : LinkController)
@[simp] theorem State.withLink_store : (s.withLink x).store = s.store := rfl
@[simp] theorem State.withLink_script : (s.withLink x).script = s.script := rfl
@[simp] theorem State.withLink_engine : (s.withLink x).engine = s.engine := rfl
@[simp] theorem State.withLink_arbiter : (s.withLink x).arbiter = s.arbiter := rfl
@[simp] theorem State.withLink_ports : (s.withLink x).ports = s.ports := rfl
@[simp] theorem State.withLink_cues : (s.withLink x).cues = s.cues := rfl
@[simp] theorem State.withLink_clock : (s.withLink x).clock = s.clock := rfl
@[simp] theorem State.withLink_heads : (s.withLink x).heads = s.heads := rfl
@[simp] theorem State.withLink_link : (s.withLink x).link = x := rfl
@[simp] theorem State.withLink_mail : (s.withLink x).mail = s.mail := rfl
@[simp] theorem State.withLink_now : (s.withLink x).now = s.now := rfl
@[simp] theorem State.withLink_cause : (s.withLink x).cause = s.cause := rfl
@[simp] theorem State.withLink_pending : (s.withLink x).pending = s.pending := rfl
end withLink

section withMail
variable (x : Mail)
@[simp] theorem State.withMail_store : (s.withMail x).store = s.store := rfl
@[simp] theorem State.withMail_script : (s.withMail x).script = s.script := rfl
@[simp] theorem State.withMail_engine : (s.withMail x).engine = s.engine := rfl
@[simp] theorem State.withMail_arbiter : (s.withMail x).arbiter = s.arbiter := rfl
@[simp] theorem State.withMail_ports : (s.withMail x).ports = s.ports := rfl
@[simp] theorem State.withMail_cues : (s.withMail x).cues = s.cues := rfl
@[simp] theorem State.withMail_clock : (s.withMail x).clock = s.clock := rfl
@[simp] theorem State.withMail_heads : (s.withMail x).heads = s.heads := rfl
@[simp] theorem State.withMail_link : (s.withMail x).link = s.link := rfl
@[simp] theorem State.withMail_mail : (s.withMail x).mail = x := rfl
@[simp] theorem State.withMail_now : (s.withMail x).now = s.now := rfl
@[simp] theorem State.withMail_cause : (s.withMail x).cause = s.cause := rfl
@[simp] theorem State.withMail_pending : (s.withMail x).pending = s.pending := rfl
end withMail

section withCause
variable (x : Bool)
@[simp] theorem State.withCause_store : (s.withCause x).store = s.store := rfl
@[simp] theorem State.withCause_script : (s.withCause x).script = s.script := rfl
@[simp] theorem State.withCause_engine : (s.withCause x).engine = s.engine := rfl
@[simp] theorem State.withCause_arbiter : (s.withCause x).arbiter = s.arbiter := rfl
@[simp] theorem State.withCause_ports : (s.withCause x).ports = s.ports := rfl
@[simp] theorem State.withCause_cues : (s.withCause x).cues = s.cues := rfl
@[simp] theorem State.withCause_clock : (s.withCause x).clock = s.clock := rfl
@[simp] theorem State.withCause_heads : (s.withCause x).heads = s.heads := rfl
@[simp] theorem State.withCause_link : (s.withCause x).link = s.link := rfl
@[simp] theorem State.withCause_mail : (s.withCause x).mail = s.mail := rfl
@[simp] theorem State.withCause_now : (s.withCause x).now = s.now := rfl
@[simp] theorem State.withCause_cause : (s.withCause x).cause = x := rfl
@[simp] theorem State.withCause_pending : (s.withCause x).pending = s.pending := rfl
end withCause

section withPort
variable (p : PortNo) (x : Port)
@[simp] theorem State.withPort_store : (s.withPort p x).store = s.store := rfl
@[simp] theorem State.withPort_script : (s.withPort p x).script = s.script := rfl
@[simp] theorem State.withPort_engine : (s.withPort p x).engine = s.engine := rfl
@[simp] theorem State.withPort_arbiter : (s.withPort p x).arbiter = s.arbiter := rfl
@[simp] theorem State.withPort_ports : (s.withPort p x).ports = s.ports.set p.val x p.isLt := rfl
@[simp] theorem State.withPort_cues : (s.withPort p x).cues = s.cues := rfl
@[simp] theorem State.withPort_clock : (s.withPort p x).clock = s.clock := rfl
@[simp] theorem State.withPort_heads : (s.withPort p x).heads = s.heads := rfl
@[simp] theorem State.withPort_link : (s.withPort p x).link = s.link := rfl
@[simp] theorem State.withPort_mail : (s.withPort p x).mail = s.mail := rfl
@[simp] theorem State.withPort_now : (s.withPort p x).now = s.now := rfl
@[simp] theorem State.withPort_cause : (s.withPort p x).cause = s.cause := rfl
@[simp] theorem State.withPort_pending : (s.withPort p x).pending = s.pending := rfl
end withPort

section withHead
variable (h : HeadNo) (x : Head)
@[simp] theorem State.withHead_store : (s.withHead h x).store = s.store := rfl
@[simp] theorem State.withHead_script : (s.withHead h x).script = s.script := rfl
@[simp] theorem State.withHead_engine : (s.withHead h x).engine = s.engine := rfl
@[simp] theorem State.withHead_arbiter : (s.withHead h x).arbiter = s.arbiter := rfl
@[simp] theorem State.withHead_ports : (s.withHead h x).ports = s.ports := rfl
@[simp] theorem State.withHead_cues : (s.withHead h x).cues = s.cues := rfl
@[simp] theorem State.withHead_clock : (s.withHead h x).clock = s.clock := rfl
@[simp] theorem State.withHead_heads : (s.withHead h x).heads = s.heads.set h.val x h.isLt := rfl
@[simp] theorem State.withHead_link : (s.withHead h x).link = s.link := rfl
@[simp] theorem State.withHead_mail : (s.withHead h x).mail = s.mail := rfl
@[simp] theorem State.withHead_now : (s.withHead h x).now = s.now := rfl
@[simp] theorem State.withHead_cause : (s.withHead h x).cause = s.cause := rfl
@[simp] theorem State.withHead_pending : (s.withHead h x).pending = s.pending := rfl
end withHead

@[simp] theorem State.tick_store : s.tick.store = s.store := rfl
@[simp] theorem State.tick_script : s.tick.script = s.script := rfl
@[simp] theorem State.tick_engine : s.tick.engine = s.engine := rfl
@[simp] theorem State.tick_arbiter : s.tick.arbiter = s.arbiter := rfl
@[simp] theorem State.tick_ports : s.tick.ports = s.ports := rfl
@[simp] theorem State.tick_cues : s.tick.cues = s.cues := rfl
@[simp] theorem State.tick_clock : s.tick.clock = s.clock := rfl
@[simp] theorem State.tick_heads : s.tick.heads = s.heads := rfl
@[simp] theorem State.tick_link : s.tick.link = s.link := rfl
@[simp] theorem State.tick_mail : s.tick.mail = s.mail := rfl
@[simp] theorem State.tick_now : s.tick.now = s.now + 1 := rfl
@[simp] theorem State.tick_cause : s.tick.cause = s.cause := rfl
@[simp] theorem State.tick_pending : s.tick.pending = s.pending := rfl

/-- The state is what its parts are: replacing a part by itself changes nothing. -/
@[simp] theorem State.withCause_self : s.withCause s.cause = s := rfl
@[simp] theorem State.withCause_withCause (a b : Bool) : (s.withCause a).withCause b = s.withCause b := rfl
@[simp] theorem State.withLink_withLink (a b : LinkController) : (s.withLink a).withLink b = s.withLink b := rfl
@[simp] theorem State.withMail_withMail (a b : Mail) : (s.withMail a).withMail b = s.withMail b := rfl

end Sys2Proof.Machine
end

