-- ==== Sys2Proof/Laws/Transmit.lean ====
section
/-! SUPPORT. What the transmitter changes when it sends a reply or a notice, each said once (R183). -/

namespace Sys2Proof.Machine

variable (s : State)

/-- Sampling a body leaves everything but the Cue Monitor. -/
theorem afterSampling_eq (n : Notice) : afterSampling n s =
    if n = .timerExpired then s.withCues { s.cues with expired := 0 } else s := by
  cases n <;> rfl

/-! ### The four cases of a transmitter at the end of an event -/

/-- A frame is being sent: nothing more happens. -/
theorem sendIfIdle_busy {s : State} (h : s.link.sending ≠ none) : sendIfIdle s = s := by
  unfold sendIfIdle; split <;> simp_all

/-- The oldest notice goes out. -/
theorem sendIfIdle_notice {s : State} {n : Notice} {rest : List Notice} (h : s.link.sending = none)
    (hn : s.link.notices = n :: rest) : sendIfIdle s = sendNotice n rest s := by
  simp only [sendIfIdle, h, hn]

/-- With no notice listed, the head reply goes out. -/
theorem sendIfIdle_reply {s : State} {r : Reply} {rest : List Reply} (h : s.link.sending = none)
    (hn : s.link.notices = []) (hr : s.link.replies = r :: rest) : sendIfIdle s = sendReply r rest s := by
  simp only [sendIfIdle, h, hn, hr]

/-- Nothing to send: nothing happens. -/
theorem sendIfIdle_empty {s : State} (hn : s.link.notices = []) (hr : s.link.replies = []) : sendIfIdle s = s := by
  unfold sendIfIdle; split <;> simp_all

/-- A transmitter that sends nothing has nothing to send, as `LinkInv` says of every part that a run reaches (R183). -/
abbrev State.Waits : Prop := s.link.sending = none → s.link.replies = [] ∧ s.link.notices = []

/-- A part whose transmitter waits only for want of a frame is left as it is. -/
theorem sendIfIdle_waits {s : State} (h : s.Waits) : sendIfIdle s = s := by
  by_cases hs : s.link.sending = none
  · exact sendIfIdle_empty (h hs).2 (h hs).1
  · exact sendIfIdle_busy hs

/-- What can come of it: nothing, a notice begun, or a reply begun. -/
theorem sendIfIdle_cases : sendIfIdle s = s ∨
    (∃ n rest, s.link.sending = none ∧ s.link.notices = n :: rest ∧ sendIfIdle s = sendNotice n rest s) ∨
    (∃ r rest, s.link.sending = none ∧ s.link.notices = [] ∧ s.link.replies = r :: rest ∧
      sendIfIdle s = sendReply r rest s) := by
  cases h : s.link.sending with
  | some _ => exact .inl (sendIfIdle_busy (by simp [h]))
  | none =>
    cases hn : s.link.notices with
    | cons n rest => exact .inr (.inl ⟨n, rest, rfl, rfl, sendIfIdle_notice h hn⟩)
    | nil =>
      cases hr : s.link.replies with
      | nil => exact .inl (sendIfIdle_empty hn hr)
      | cons r rest => exact .inr (.inr ⟨r, rest, rfl, rfl, rfl, sendIfIdle_reply h hn hr⟩)

/-- A frame being sent goes on (R183). -/
theorem sendIfIdle_going {s : State} (h : s.link.sending ≠ none) : (sendIfIdle s).link.sending = s.link.sending := by
  rw [sendIfIdle_busy h]

/-! ### What it leaves alone -/

section sendNotice
variable (n : Notice) (rest : List Notice)
@[simp] theorem sendNotice_store : (sendNotice n rest s).store = s.store := by cases n <;> rfl
@[simp] theorem sendNotice_script : (sendNotice n rest s).script = s.script := by cases n <;> rfl
@[simp] theorem sendNotice_engine : (sendNotice n rest s).engine = s.engine := by cases n <;> rfl
@[simp] theorem sendNotice_arbiter : (sendNotice n rest s).arbiter = s.arbiter := by cases n <;> rfl
@[simp] theorem sendNotice_ports : (sendNotice n rest s).ports = s.ports := by cases n <;> rfl
@[simp] theorem sendNotice_clock : (sendNotice n rest s).clock = s.clock := by cases n <;> rfl
@[simp] theorem sendNotice_heads : (sendNotice n rest s).heads = s.heads := by cases n <;> rfl
@[simp] theorem sendNotice_mail : (sendNotice n rest s).mail = s.mail := by cases n <;> rfl
@[simp] theorem sendNotice_now : (sendNotice n rest s).now = s.now := by cases n <;> rfl
@[simp] theorem sendNotice_cause : (sendNotice n rest s).cause = s.cause := by cases n <;> rfl
@[simp] theorem sendNotice_pending : (sendNotice n rest s).pending = s.pending := by cases n <;> rfl
@[simp] theorem sendNotice_link : (sendNotice n rest s).link =
    { s.link with sending := some (noticeFrame n s), notices := rest } := by cases n <;> rfl
theorem sendNotice_cues : (sendNotice n rest s).cues =
    if n = .timerExpired then { s.cues with expired := 0 } else s.cues := by cases n <;> rfl
end sendNotice

@[simp] theorem sendIfIdle_store : (sendIfIdle s).store = s.store := by
  rcases sendIfIdle_cases s with h | ⟨n, r, -, -, h⟩ | ⟨n, r, -, -, -, h⟩ <;> rw [h] <;> simp [sendReply]
@[simp] theorem sendIfIdle_script : (sendIfIdle s).script = s.script := by
  rcases sendIfIdle_cases s with h | ⟨n, r, -, -, h⟩ | ⟨n, r, -, -, -, h⟩ <;> rw [h] <;> simp [sendReply]
@[simp] theorem sendIfIdle_engine : (sendIfIdle s).engine = s.engine := by
  rcases sendIfIdle_cases s with h | ⟨n, r, -, -, h⟩ | ⟨n, r, -, -, -, h⟩ <;> rw [h] <;> simp [sendReply]
@[simp] theorem sendIfIdle_arbiter : (sendIfIdle s).arbiter = s.arbiter := by
  rcases sendIfIdle_cases s with h | ⟨n, r, -, -, h⟩ | ⟨n, r, -, -, -, h⟩ <;> rw [h] <;> simp [sendReply]
@[simp] theorem sendIfIdle_ports : (sendIfIdle s).ports = s.ports := by
  rcases sendIfIdle_cases s with h | ⟨n, r, -, -, h⟩ | ⟨n, r, -, -, -, h⟩ <;> rw [h] <;> simp [sendReply]
@[simp] theorem sendIfIdle_clock : (sendIfIdle s).clock = s.clock := by
  rcases sendIfIdle_cases s with h | ⟨n, r, -, -, h⟩ | ⟨n, r, -, -, -, h⟩ <;> rw [h] <;> simp [sendReply]
@[simp] theorem sendIfIdle_heads : (sendIfIdle s).heads = s.heads := by
  rcases sendIfIdle_cases s with h | ⟨n, r, -, -, h⟩ | ⟨n, r, -, -, -, h⟩ <;> rw [h] <;> simp [sendReply]
@[simp] theorem sendIfIdle_mail : (sendIfIdle s).mail = s.mail := by
  rcases sendIfIdle_cases s with h | ⟨n, r, -, -, h⟩ | ⟨n, r, -, -, -, h⟩ <;> rw [h] <;> simp [sendReply]
@[simp] theorem sendIfIdle_now : (sendIfIdle s).now = s.now := by
  rcases sendIfIdle_cases s with h | ⟨n, r, -, -, h⟩ | ⟨n, r, -, -, -, h⟩ <;> rw [h] <;> simp [sendReply]
@[simp] theorem sendIfIdle_cause : (sendIfIdle s).cause = s.cause := by
  rcases sendIfIdle_cases s with h | ⟨n, r, -, -, h⟩ | ⟨n, r, -, -, -, h⟩ <;> rw [h] <;> simp [sendReply]
@[simp] theorem sendIfIdle_pending : (sendIfIdle s).pending = s.pending := by
  rcases sendIfIdle_cases s with h | ⟨n, r, -, -, h⟩ | ⟨n, r, -, -, -, h⟩ <;> rw [h] <;> simp [sendReply]

/-- Of the Link Controller it changes the frame being sent, the reply queue and the notice list. -/
theorem sendIfIdle_link : { (sendIfIdle s).link with
    sending := none, replies := [], notices := [] } = { s.link with sending := none, replies := [], notices := [] } := by
  rcases sendIfIdle_cases s with h | ⟨n, r, -, -, h⟩ | ⟨n, r, -, -, -, h⟩ <;> rw [h] <;> simp [sendReply]

@[simp] theorem sendIfIdle_requests : (sendIfIdle s).link.requests = s.link.requests := by
  rcases sendIfIdle_cases s with h | ⟨n, r, -, -, h⟩ | ⟨n, r, -, -, -, h⟩ <;> rw [h] <;> simp [sendReply]
@[simp] theorem sendIfIdle_mask : (sendIfIdle s).link.mask = s.link.mask := by
  rcases sendIfIdle_cases s with h | ⟨n, r, -, -, h⟩ | ⟨n, r, -, -, -, h⟩ <;> rw [h] <;> simp [sendReply]
@[simp] theorem sendIfIdle_resetScope : (sendIfIdle s).link.resetScope = s.link.resetScope := by
  rcases sendIfIdle_cases s with h | ⟨n, r, -, -, h⟩ | ⟨n, r, -, -, -, h⟩ <;> rw [h] <;> simp [sendReply]

/-- Only a Timer Expired that goes out touches the Cue Monitor: its expired set is emptied. -/
theorem sendIfIdle_cues {s : State} (h : s.link.sending ≠ none ∨ s.link.notices.head? ≠ some .timerExpired) :
    (sendIfIdle s).cues = s.cues := by
  rcases sendIfIdle_cases s with e | ⟨n, r, hs, hn, e⟩ | ⟨n, r, -, -, -, e⟩
  · rw [e]
  · rw [e, sendNotice_cues, if_neg]
    rintro rfl
    simp [hs, hn] at h
  · rw [e]; rfl

/-- After an event a transmitter that sends nothing has nothing to send (R183). -/
theorem sendIfIdle_idle (h : (sendIfIdle s).link.sending = none) :
    (sendIfIdle s).link.replies = [] ∧ (sendIfIdle s).link.notices = [] := by
  revert h
  unfold sendIfIdle
  split <;> simp_all [sendReply]

/-- The transmitter that has begun a frame, or has nothing to send, does nothing more: a command whose last step is one
that ended with the transmitter's turn adds none. -/
@[simp] theorem sendIfIdle_twice : sendIfIdle (sendIfIdle s) = sendIfIdle s := sendIfIdle_waits (sendIfIdle_idle s)

theorem sendNotice_withCause (n : Notice) (rest : List Notice) (b : Bool) :
    sendNotice n rest (s.withCause b) = (sendNotice n rest s).withCause b := by cases n <;> rfl

/-- The mark of the event under way plays no part in the transmitter's choice. -/
@[simp] theorem sendIfIdle_withCause (b : Bool) : sendIfIdle (s.withCause b) = (sendIfIdle s).withCause b := by
  unfold sendIfIdle
  dsimp only [State.withCause_link]
  split
  · rfl
  · exact sendNotice_withCause _ _ _ _
  · rfl
  · rfl

/-- An event whose last step has had the transmitter's turn: the event's own turn adds nothing. -/
theorem event_sendIfIdle (req : Bool) (f : State → State) :
    event req (fun u => sendIfIdle (f u)) s = event req f s := by
  simp [event]

end Sys2Proof.Machine
end

