-- ==== Sys2Proof/Laws/Requests.lean ====
section
/-! SUPPORT. What executing a request does, and what taking a message does, each said once. -/

namespace Sys2Proof.Machine

/-! ### Outcomes -/

@[simp] theorem ran_eq (s : State) : ran s = .next s := rfl

/-! ### Answers -/

@[simp] theorem done_status (r : List Byte) (s : State) : (done r s).status = .done := rfl
@[simp] theorem done_results (r : List Byte) (s : State) : (done r s).results = r := rfl
@[simp] theorem done_state (r : List Byte) (s : State) : (done r s).state = s := rfl
@[simp] theorem refuse_status (x : Status) (s : State) : (refuse x s).status = x := rfl
@[simp] theorem refuse_results (x : Status) (s : State) : (refuse x s).results = [] := rfl
@[simp] theorem refuse_state (x : Status) (s : State) : (refuse x s).state = s := rfl

/-- An answer of any status but Done has no results (R188). -/
def Answer.Plain (a : Answer) : Prop := a.status = .done ∨ a.results = []

theorem done_plain (r : List Byte) (s : State) : (done r s).Plain := .inl rfl
theorem refuse_plain (x : Status) (s : State) : (refuse x s).Plain := .inr rfl

/-- The body of a plain answer's reply is its status and its results. -/
theorem Answer.reply_body {a : Answer} (h : a.Plain) (kind : Byte) :
    (a.reply kind).body = a.status.code :: a.results := by
  unfold Answer.reply
  rcases h with h | h <;> simp [h]

/-! ### The head request -/

/-- A request that is not the one meant, or cannot be taken, is left alone. -/
theorem runRequestIf_waits {meant : Request → Bool} {owner : List Byte → State → Answer} {s : State}
    (h : ∀ r rest, s.link.requests = r :: rest → (meant r && s.canTake) = false) :
    runRequestIf meant owner s = s := by
  unfold runRequestIf
  split
  · rfl
  · rename_i r rest hr
    simp [h r rest hr]

/-- Executing the head request: the owner's answer, placed (R182). The owner leaves the two queues to the Link
Controller. -/
theorem runRequestIf_answered {meant : Request → Bool} {owner : List Byte → State → Answer} {s : State}
    {kind : Byte} {body : List Byte} (h : Serving s kind body)
    (hm : ∀ busy, meant { kind := kind, body := body, busy := busy } = true)
    {a : Answer} (ha : owner body (s.withCause true) = a) (hp : a.Plain)
    (hq : a.state.link.requests = s.link.requests) (hr : a.state.link.replies = s.link.replies) :
    runRequestIf meant owner s = answered s a.status a.results a.state := by
  obtain ⟨⟨busy, rest, hh⟩, hf, ht⟩ := h
  have hb : a.reply kind =
      { kind := replyKind kind, body := a.status.code :: a.results, isReset := a.state.link.resetScope.isSome } := by
    rw [← Answer.reply_body hp kind]; rfl
  unfold runRequestIf
  simp only [hh, hm, ht, Bool.and_self, if_true, event, bodyFits, hf, ha, decide_true]
  simp only [placeReply, answered, replied, placed, State.withLink, State.withCause, hh, hq, hr, hb, List.tail_cons]

theorem runRequest_answered {n : Nat} {owner : List Byte → State → Answer} {s : State}
    {kind : Byte} {body : List Byte} (h : Serving s kind body) (hk : kind.toNat = n)
    {a : Answer} (ha : owner body (s.withCause true) = a) (hp : a.Plain)
    (hq : a.state.link.requests = s.link.requests) (hr : a.state.link.replies = s.link.replies) :
    runRequest n owner s = answered s a.status a.results a.state :=
  runRequestIf_answered h (fun _ => by simp [hk]) ha hp hq hr

/-- The request is refused: nothing but the reply. -/
theorem runRequest_refused {n : Nat} {owner : List Byte → State → Answer} {s : State}
    {kind : Byte} {body : List Byte} (h : Serving s kind body) (hk : kind.toNat = n) {x : Status}
    (ha : owner body (s.withCause true) = refuse x (s.withCause true)) :
    runRequest n owner s = refused s x := by
  rw [runRequest_answered h hk ha (refuse_plain _ _) rfl rfl]; rfl

/-- The request is answered Done with results; `u` is what the owner makes of the part, the mark aside. -/
theorem runRequest_done {n : Nat} {owner : List Byte → State → Answer} {s : State}
    {kind : Byte} {body : List Byte} (h : Serving s kind body) (hk : kind.toNat = n) {r : List Byte} {u : State}
    (ha : owner body (s.withCause true) = done r (u.withCause true))
    (hq : u.link.requests = s.link.requests) (hr : u.link.replies = s.link.replies) :
    runRequest n owner s = answered s .done r u :=
  runRequest_answered h hk ha (done_plain _ _) hq hr

/-- A body of the wrong length is answered Malformed, and no owner sees it (R182). -/
theorem runRequestIf_malformed {meant : Request → Bool} {owner : List Byte → State → Answer} {s : State}
    {r : Request} {rest : List Request} (h : s.link.requests = r :: rest) (hm : meant r = true)
    (ht : s.canTake = true) (hf : requestLength r.kind.toNat r.body ≠ some r.body.length) :
    runRequestIf meant owner s = refused s .malformed := by
  unfold runRequestIf
  simp only [h, hm, ht, Bool.and_self, if_true, event]
  simp [bodyFits, hf, placeReply, refused, answered, replied, placed, State.withLink, State.withCause, h, Answer.reply, refuse,
    Status.code]

-- What the part holds once the request is answered: everything but the two queues is the owner's.
section replied
variable (s u : State) (x : Status) (r : List Byte)
@[simp] theorem replied_store : (replied s x r u).store = u.store := rfl
@[simp] theorem replied_script : (replied s x r u).script = u.script := rfl
@[simp] theorem replied_engine : (replied s x r u).engine = u.engine := rfl
@[simp] theorem replied_arbiter : (replied s x r u).arbiter = u.arbiter := rfl
@[simp] theorem replied_ports : (replied s x r u).ports = u.ports := rfl
@[simp] theorem replied_cues : (replied s x r u).cues = u.cues := rfl
@[simp] theorem replied_clock : (replied s x r u).clock = u.clock := rfl
@[simp] theorem replied_heads : (replied s x r u).heads = u.heads := rfl
@[simp] theorem replied_mail : (replied s x r u).mail = u.mail := rfl
@[simp] theorem replied_now : (replied s x r u).now = u.now := rfl
@[simp] theorem replied_pending : (replied s x r u).pending = u.pending := rfl
@[simp] theorem replied_cause : (replied s x r u).cause = false := rfl
@[simp] theorem replied_requests : (replied s x r u).link.requests = s.link.requests.tail := rfl
@[simp] theorem replied_replies :
    (replied s x r u).link.replies = s.link.replies ++ placed s x r u.link.resetScope.isSome := rfl
@[simp] theorem replied_notices : (replied s x r u).link.notices = u.link.notices := rfl
@[simp] theorem replied_mask : (replied s x r u).link.mask = u.link.mask := rfl
@[simp] theorem replied_sending : (replied s x r u).link.sending = u.link.sending := rfl
@[simp] theorem replied_resetScope : (replied s x r u).link.resetScope = u.link.resetScope := rfl
end replied

-- What the transmitter leaves alone when it begins to send the reply or a notice (R183).
section answered
variable (s u : State) (x : Status) (r : List Byte)
@[simp] theorem answered_store : (answered s x r u).store = u.store := by simp [answered]
@[simp] theorem answered_script : (answered s x r u).script = u.script := by simp [answered]
@[simp] theorem answered_engine : (answered s x r u).engine = u.engine := by simp [answered]
@[simp] theorem answered_arbiter : (answered s x r u).arbiter = u.arbiter := by simp [answered]
@[simp] theorem answered_ports : (answered s x r u).ports = u.ports := by simp [answered]
@[simp] theorem answered_clock : (answered s x r u).clock = u.clock := by simp [answered]
@[simp] theorem answered_heads : (answered s x r u).heads = u.heads := by simp [answered]
@[simp] theorem answered_mail : (answered s x r u).mail = u.mail := by simp [answered]
@[simp] theorem answered_now : (answered s x r u).now = u.now := by simp [answered]
@[simp] theorem answered_pending : (answered s x r u).pending = u.pending := by simp [answered]
@[simp] theorem answered_cause : (answered s x r u).cause = false := by simp [answered]
@[simp] theorem answered_requests : (answered s x r u).link.requests = s.link.requests.tail := by simp [answered]
@[simp] theorem answered_mask : (answered s x r u).link.mask = u.link.mask := by simp [answered]
@[simp] theorem answered_resetScope : (answered s x r u).link.resetScope = u.link.resetScope := by simp [answered]
end answered

/-- While a frame is being sent, the reply joins the queue and nothing more happens (R183). -/
theorem answered_busy {s u : State} (x : Status) (r : List Byte) (h : u.link.sending ≠ none) :
    answered s x r u = replied s x r u := sendIfIdle_busy h

/-- The mark of the event that made `u` is gone once the request is answered. -/
@[simp] theorem answered_withCause (s u : State) (x : Status) (r : List Byte) (b : Bool) :
    answered s x r (u.withCause b) = answered s x r u := rfl

/-- The part takes a request only while no Reset waits (R186). -/
theorem canTake_noReset {s : State} (h : s.canTake = true) : s.link.resetScope = none := by
  unfold State.canTake at h
  split at h
  · cases h
  · simp only [Bool.and_eq_true, Option.isNone_iff_eq_none] at h
    exact h.1.1.2

/-- ... and while the reply queue has room for its reply and its Busy replies (R182). -/
theorem canTake_room {s : State} {r : Request} {rest : List Request} (h : s.canTake = true)
    (hr : s.link.requests = r :: rest) : s.link.replies.length + 1 + r.busy.length ≤ Config.replyDepth := by
  unfold State.canTake at h
  simp only [hr, Bool.and_eq_true, decide_eq_true_eq] at h
  exact h.2

/-- The mark of the event under way plays no part in whether a request can be taken. -/
@[simp] theorem canTake_withCause (s : State) (b : Bool) : (s.withCause b).canTake = s.canTake := rfl

/-! ### Messages -/

theorem takeHead_nil {α β : Type} {want : α → Option β} {drop : List (Msg α) → State → State}
    {f : β → State → State} {s : State} : takeHead [] want drop f s = s := rfl

/-- The oldest message is one the test names: it leaves its channel and its event runs. -/
theorem takeHead_some {α β : Type} {want : α → Option β} {drop : List (Msg α) → State → State}
    {f : β → State → State} {s : State} {m : Msg α} {rest : List (Msg α)} {x : β} (h : want m.body = some x) :
    takeHead (m :: rest) want drop f s = event m.req (f x) (drop rest s) := by
  simp [takeHead, h]

/-- The oldest message is another one: nothing happens (log 1). -/
theorem takeHead_none {α β : Type} {want : α → Option β} {drop : List (Msg α) → State → State}
    {f : β → State → State} {s : State} {m : Msg α} {rest : List (Msg α)} (h : want m.body = none) :
    takeHead (m :: rest) want drop f s = s := by
  simp [takeHead, h]

/-! ### Notices (R184) -/

-- A raise touches nothing but the notice list.
section raise
variable (n : Notice) (s : State)
@[simp] theorem raise_store : (raise n s).store = s.store := rfl
@[simp] theorem raise_script : (raise n s).script = s.script := rfl
@[simp] theorem raise_engine : (raise n s).engine = s.engine := rfl
@[simp] theorem raise_arbiter : (raise n s).arbiter = s.arbiter := rfl
@[simp] theorem raise_ports : (raise n s).ports = s.ports := rfl
@[simp] theorem raise_cues : (raise n s).cues = s.cues := rfl
@[simp] theorem raise_clock : (raise n s).clock = s.clock := rfl
@[simp] theorem raise_heads : (raise n s).heads = s.heads := rfl
@[simp] theorem raise_mail : (raise n s).mail = s.mail := rfl
@[simp] theorem raise_now : (raise n s).now = s.now := rfl
@[simp] theorem raise_cause : (raise n s).cause = s.cause := rfl
@[simp] theorem raise_pending : (raise n s).pending = s.pending := rfl
@[simp] theorem raise_link : (raise n s).link = s.link.raise n := rfl
end raise

section linkRaise
variable (l : LinkController) (n : Notice)
@[simp] theorem LinkController.raise_requests : (l.raise n).requests = l.requests := by unfold LinkController.raise; split <;> rfl
@[simp] theorem LinkController.raise_replies : (l.raise n).replies = l.replies := by unfold LinkController.raise; split <;> rfl
@[simp] theorem LinkController.raise_mask : (l.raise n).mask = l.mask := by unfold LinkController.raise; split <;> rfl
@[simp] theorem LinkController.raise_lastError : (l.raise n).lastError = l.lastError := by unfold LinkController.raise; split <;> rfl
@[simp] theorem LinkController.raise_rx : (l.raise n).rx = l.rx := by unfold LinkController.raise; split <;> rfl
@[simp] theorem LinkController.raise_sending : (l.raise n).sending = l.sending := by unfold LinkController.raise; split <;> rfl
@[simp] theorem LinkController.raise_resetScope : (l.raise n).resetScope = l.resetScope := by unfold LinkController.raise; split <;> rfl
@[simp] theorem LinkController.raise_rate : (l.raise n).rate = l.rate := by unfold LinkController.raise; split <;> rfl
end linkRaise

/-- An enabled kind is pending after it is raised. -/
theorem LinkController.raise_pending {l : LinkController} {n : Notice} (h : n.enabledBy l.mask = true) :
    n ∈ (l.raise n).notices := by
  unfold LinkController.raise
  split
  · simp
  · rename_i hc; simp [h] at hc; exact hc

/-- What was pending stays pending, in its place. -/
theorem LinkController.raise_prefix (l : LinkController) (n : Notice) : l.notices <+: (l.raise n).notices := by
  unfold LinkController.raise
  split <;> simp

/-- A raise keeps the list free of repeats and of kinds masked off. -/
theorem LinkController.raise_distinct {l : LinkController} (n : Notice) (h : l.notices.Nodup) :
    (l.raise n).notices.Nodup := by
  unfold LinkController.raise
  split
  · rename_i hc; simpa [List.nodup_append, h] using fun a ha (e : a = n) => hc.2 (e ▸ ha)
  · exact h

theorem LinkController.raise_enabled {l : LinkController} (n : Notice)
    (h : ∀ m ∈ l.notices, m.enabledBy l.mask = true) : ∀ m ∈ (l.raise n).notices, m.enabledBy (l.raise n).mask = true := by
  rw [LinkController.raise_mask]
  unfold LinkController.raise
  split
  · rename_i hc
    intro m hm
    rcases List.mem_append.1 hm with hm | hm
    · exact h m hm
    · rw [List.mem_singleton.1 hm]; exact hc.1
  · exact h

/-- A raise keeps what holds of the Link Controller; that a transmitter that sends nothing has nothing to send is the
event's to bring about again (R183). -/
theorem LinkController.raise_inv {l : LinkController} (n : Notice) (h : LinkInv l) (hs : l.sending ≠ none) :
    LinkInv (l.raise n) where
  requests := by simpa using h.requests
  busy := by simpa [LinkController.busyHeld] using h.busy
  replies := by simpa using h.replies
  distinct := LinkController.raise_distinct n h.distinct
  enabled := LinkController.raise_enabled n h.enabled
  waits e := absurd (by simpa using e) hs

end Sys2Proof.Machine
end

