-- ==== Sys2Proof/Laws/Frames.lean ====
section
/-! SUPPORT. What each shared operation leaves alone, said once for each. -/

namespace Sys2Proof.Machine

variable {ps qs : List Part} {s t u : State}

/-! ### Same is reflexive, transitive and monotone -/

theorem Same.rfl : Same ps s s := by constructor <;> intros <;> trivial

theorem Same.trans (h : Same ps s t) (k : Same ps t u) : Same ps s u where
  store n := (k.store n).trans (h.store n)
  script n := (k.script n).trans (h.script n)
  engine n := (k.engine n).trans (h.engine n)
  arbiter n := (k.arbiter n).trans (h.arbiter n)
  ports n := (k.ports n).trans (h.ports n)
  cues n := (k.cues n).trans (h.cues n)
  clock n := (k.clock n).trans (h.clock n)
  heads n := (k.heads n).trans (h.heads n)
  link n := (k.link n).trans (h.link n)
  notices n := (k.notices n).trans (h.notices n)
  sending n := (k.sending n).trans (h.sending n)
  ending n x := (k.ending n (h.ending n x ▸ x)).trans (h.ending n x)
  expiry n m := h.expiry n (k.expiry n m)
  mail n := (k.mail n).trans (h.mail n)
  now n := (k.now n).trans (h.now n)
  pending := k.pending.trans h.pending

/-- An operation after others: what it changes, and what they change. -/
theorem Same.after (k : Same qs t u) (hs : qs ⊆ ps) (h : Same ps s t) : Same ps s u where
  store n := (k.store fun m => n (hs m)).trans (h.store n)
  script n := (k.script fun m => n (hs m)).trans (h.script n)
  engine n := (k.engine fun m => n (hs m)).trans (h.engine n)
  arbiter n := (k.arbiter fun m => n (hs m)).trans (h.arbiter n)
  ports n := (k.ports fun m => n (hs m)).trans (h.ports n)
  cues n := (k.cues fun m => n (hs m)).trans (h.cues n)
  clock n := (k.clock fun m => n (hs m)).trans (h.clock n)
  heads n := (k.heads fun m => n (hs m)).trans (h.heads n)
  link n := (k.link fun m => n (hs m)).trans (h.link n)
  notices n := (k.notices fun m => n (hs m)).trans (h.notices n)
  sending n := (k.sending fun m => n (hs m)).trans (h.sending n)
  ending n x := (k.ending (fun m => n (hs m)) (h.ending n x ▸ x)).trans (h.ending n x)
  expiry n m := h.expiry n (k.expiry (fun x => n (hs x)) m)
  mail n := (k.mail fun m => n (hs m)).trans (h.mail n)
  now n := (k.now fun m => n (hs m)).trans (h.now n)
  pending := k.pending.trans h.pending

theorem Same.mono (h : Same ps s t) (hs : ps ⊆ qs) : Same qs s t where
  store n := h.store fun m => n (hs m)
  script n := h.script fun m => n (hs m)
  engine n := h.engine fun m => n (hs m)
  arbiter n := h.arbiter fun m => n (hs m)
  ports n := h.ports fun m => n (hs m)
  cues n := h.cues fun m => n (hs m)
  clock n := h.clock fun m => n (hs m)
  heads n := h.heads fun m => n (hs m)
  link n := h.link fun m => n (hs m)
  notices n := h.notices fun m => n (hs m)
  sending n := h.sending fun m => n (hs m)
  ending n := h.ending fun m => n (hs m)
  expiry n m := h.expiry (fun x => n (hs x)) m
  mail n := h.mail fun m => n (hs m)
  now n := h.now fun m => n (hs m)
  pending := h.pending

/-- A fold of operations that each leave the same parts alone leaves them alone. -/
theorem Same.foldl {β : Type} {g : State → β → State} (h : ∀ s b, Same ps s (g s b)) :
    ∀ (l : List β) (s : State), Same ps s (l.foldl g s)
  | [], _ => Same.rfl
  | b :: l, s => (h s b).trans (Same.foldl h l _)

/-- A fold of operations that each keep a frame from `s` keeps it. -/
theorem Same.foldlOf {β : Type} {g : State → β → State} (h : ∀ u b, Same ps s u → Same ps s (g u b)) :
    ∀ (l : List β) (t : State), Same ps s t → Same ps s (l.foldl g t)
  | [], _, ht => ht
  | b :: l, t, ht => Same.foldlOf h l _ (h t b ht)

/-! ### Replacing one part -/

theorem same_withStore (x : TextStore) : Same [.store] s (s.withStore x) := by constructor <;> simp
theorem same_withScript (x : ScriptTable) : Same [.script] s (s.withScript x) := by constructor <;> simp
theorem same_withEngine (x : Engine) : Same [.engine] s (s.withEngine x) := by constructor <;> simp
theorem same_withArbiter (x : Arbiter) : Same [.arbiter] s (s.withArbiter x) := by constructor <;> simp
theorem same_withPort (p : PortNo) (x : Port) : Same [.ports] s (s.withPort p x) := by constructor <;> simp
theorem same_withCues (x : CueMonitor) : Same [.cues] s (s.withCues x) := by constructor <;> simp
theorem same_withClock (x : FrameClock) : Same [.clock] s (s.withClock x) := by constructor <;> simp
theorem same_withHead (h : HeadNo) (x : Head) : Same [.heads] s (s.withHead h x) := by constructor <;> simp
theorem same_withLink (x : LinkController) (hs : x.sending = s.link.sending := by rfl)
    (he : .timerExpired ∈ x.notices → .timerExpired ∈ s.link.notices := by exact fun h => h) :
    Same [.link, .notices] s (s.withLink x) := by
  constructor <;> simp [hs]
  exact he
theorem same_withMail (x : Mail) : Same [.mail] s (s.withMail x) := by constructor <;> simp
theorem same_withCause (b : Bool) : Same [] s (s.withCause b) := by constructor <;> simp

theorem LinkController.mem_raise {l : LinkController} {m n : Notice} (h : m ∈ (l.raise n).notices) :
    m ∈ l.notices ∨ m = n := by
  unfold LinkController.raise at h
  split at h
  · simpa using h
  · exact .inl h

theorem LinkController.raise_rest (l : LinkController) (n : Notice) :
    { l.raise n with notices := [], sending := none } = { l with notices := [], sending := none } := by
  unfold LinkController.raise; split <;> rfl

/-- A raise of any kind but Timer Expired changes the notice list. -/
theorem same_raise (n : Notice) (hn : n ≠ .timerExpired := by decide) : Same [.notices] s (raise n s) := by
  constructor <;> simp
  intro h
  exact (LinkController.mem_raise h).resolve_right (Ne.symm hn)

/-- The Cue Monitor raises Timer Expired. -/
theorem same_raiseExpired : Same [.cues, .notices] s (raise .timerExpired s) := by
  constructor <;> simp

/-- A transmitter that waits only for want of a frame, over work that may already have set it going: what it then sends
is what the work has placed or listed since (R183). -/
theorem same_sendIfIdle (hw : s.Waits) (h : Same ps s t) (he : .ending ∉ ps) (hs : .sending ∈ ps) :
    Same ps s (sendIfIdle t) := by
  have hi (e : t.link.sending = none) : s.link.replies = [] ∧ s.link.notices = [] :=
    hw (Classical.byContradiction fun c => c (h.ending he c ▸ e))
  have ha {p : Part} (hp : p ∉ ps) : p ≠ .sending := fun e => hp (e ▸ hs)
  rcases sendIfIdle_cases t with ht | ⟨n, rest, e, hn, ht⟩ | ⟨x, rest, e, -, hx, ht⟩
  · rw [ht]; exact h
  · obtain ⟨-, hno⟩ := hi e
    have hm : .notices ∈ ps := Classical.byContradiction fun c => by simpa [hn, hno] using h.notices c
    have hc : n = .timerExpired → .cues ∈ ps := fun en => Classical.byContradiction fun c => by
      simpa [hno] using h.expiry c (by simp [hn, en])
    rw [ht]
    exact {
      store := fun m => by simpa using h.store m
      script := fun m => by simpa using h.script m
      engine := fun m => by simpa using h.engine m
      arbiter := fun m => by simpa using h.arbiter m
      ports := fun m => by simpa using h.ports m
      cues := fun m => by rw [sendNotice_cues, if_neg fun en => m (hc en)]; exact h.cues m
      clock := fun m => by simpa using h.clock m
      heads := fun m => by simpa using h.heads m
      link := fun m => by simpa using h.link m
      notices := fun m => absurd hm m
      sending := fun m => absurd hs m
      ending := fun _ c => absurd e (h.ending he c ▸ c)
      expiry := fun m x => h.expiry m (by simp at x; simp [hn, x])
      mail := fun m => by simpa using h.mail m
      now := fun m => by simpa using h.now m
      pending := by simpa using h.pending }
  · obtain ⟨hr, -⟩ := hi e
    have hm : .link ∈ ps := Classical.byContradiction fun c => by
      have := congrArg LinkController.replies (h.link c)
      simp [hx, hr] at this
    rw [ht]
    exact {
      store := h.store, script := h.script, engine := h.engine, arbiter := h.arbiter, ports := h.ports
      cues := h.cues, clock := h.clock, heads := h.heads
      link := fun m => absurd hm m
      notices := h.notices
      sending := fun m => absurd hs m
      ending := fun _ c => absurd e (h.ending he c ▸ c)
      expiry := h.expiry, mail := h.mail, now := h.now, pending := h.pending }

/-- An event whose work may set the transmitter going at the end of each of its steps. -/
theorem same_eventOf {req : Bool} {f : State → State} (hw : s.Waits) (h : ∀ u, Same ps s u → Same ps s (f u))
    (he : .ending ∉ ps) (hs : .sending ∈ ps) : Same ps s (event req f s) :=
  same_sendIfIdle hw (.after (same_withCause false) (by simp) (h _ ((same_withCause req).mono (by simp)))) he hs

/-- An event changes what its work changes, and the frame being sent. -/
theorem same_event {req : Bool} {f : State → State} (hw : s.Waits)
    (h : ∀ u, Same ps u (f u)) (he : .ending ∉ ps) : Same (.sending :: ps) s (event req f s) :=
  same_eventOf hw (fun u hu => .after (h u) (by simp) hu) (by simpa using he) (by simp)

/-- An event whose work neither places a reply nor lists a notice changes what its work changes. -/
theorem same_quietEvent {req : Bool} {f : State → State}
    (hw : s.Waits) (h : ∀ u, Same ps u (f u))
    (hl : .link ∉ ps) (hn : .notices ∉ ps) (hs : .sending ∉ ps) : Same ps s (event req f s) := by
  have hu := ((same_withCause req (s := s)).mono (by simp)).trans
    ((h _).trans ((same_withCause false).mono (by simp)))
  unfold event
  rwa [sendIfIdle_waits fun e => ?_]
  have hr := congrArg LinkController.replies (hu.link hl)
  simp only at hr
  rw [hr, hu.notices hn]
  exact hw (hu.sending hs ▸ e)

/-- Taking a message whose event may set the transmitter going at the end of each of its steps. -/
theorem same_takeHeadOf {α β : Type} {c : List (Msg α)} {want : α → Option β} {drop : List (Msg α) → State → State}
    {f : β → State → State} (hw : s.Waits)
    (hd : ∀ r u, Same [.mail] u (drop r u)) (hm : .mail ∈ ps) (hf : ∀ x u, Same ps s u → Same ps s (f x u))
    (he : .ending ∉ ps) (hs : .sending ∈ ps) : Same ps s (takeHead c want drop f s) := by
  unfold takeHead
  split
  · split
    · exact same_sendIfIdle hw (.after (same_withCause false) (by simp) (hf _ _ (.after (same_withCause _) (by simp)
        ((hd _ _).mono (by simpa using hm))))) he hs
    · exact Same.rfl
  · exact Same.rfl

/-- Taking a message changes what dropping it and its event change, and the frame being sent. -/
theorem same_takeHead {α β : Type} {c : List (Msg α)} {want : α → Option β} {drop : List (Msg α) → State → State}
    {f : β → State → State} (hw : s.Waits)
    (hd : ∀ r u, Same [.mail] u (drop r u)) (hm : .mail ∈ ps) (hf : ∀ x u, Same ps u (f x u)) (he : .ending ∉ ps) :
    Same (.sending :: ps) s (takeHead c want drop f s) :=
  same_takeHeadOf hw hd (by simp [hm]) (fun x u hu => .after (hf x u) (by simp) hu) (by simpa using he) (by simp)

/-! ### Sending: only the channels -/

theorem same_sendScript (x : ScriptMsg) : Same [.mail] s (sendScript x s) := same_withMail _
theorem same_sendReports (rs : List ScriptReport) : Same [.mail] s (sendReports rs s) := same_withMail _
theorem same_sendRewritten (k : Slot) (b : Nat) : Same [.mail] s (sendRewritten k b s) := same_withMail _
theorem same_sendJumped : Same [.mail] s (sendJumped s) := same_withMail _
theorem same_sendStop : Same [.mail] s (sendStop s) := same_withMail _
theorem same_sendInput (x : HolderInput) : Same [.mail] s (sendInput x s) := same_withMail _
theorem same_sendFrameStart : Same [.mail] s (sendFrameStart s) := same_withMail _
theorem same_sendArbiter (p : PortNo) (x : PortMsg) : Same [.mail] s (sendArbiter p x s) := same_withMail _
theorem same_sendStanding (p : PortNo) (d : DriveState) (c : PortClass) : Same [.mail] s (sendStanding p d c s) :=
  same_withMail _
theorem same_sendFlash (b : Bool) : Same [.mail] s (sendFlash b s) := same_withMail _
theorem same_sendCueFlag (b : Bool) : Same [.mail] s (sendCueFlag b s) := same_withMail _
theorem same_sendPublish (x : Publish) : Same [.mail] s (sendPublish x s) := same_withMail _

/-! ### Text Store -/

theorem same_storeLowTest : Same [.store, .notices] s (storeLowTest s) := by
  unfold storeLowTest
  split
  · exact ((same_withStore _).mono (by simp)).trans ((same_raise _).mono (by simp))
  · exact Same.rfl

theorem same_rearmTest : Same [.store] s (rearmTest s) := by
  unfold rearmTest
  split
  · exact same_withStore _
  · exact Same.rfl

theorem same_returnRun (run : List Nat) : Same [.store] s (returnRun run s) :=
  (same_withStore _).trans same_rearmTest

theorem same_rewriteBlock (n : Nat) (r : LineRecord) : Same [.store] s (rewriteBlock n r s) := same_withStore _

theorem same_takeBlock {r : LineRecord} {n : Nat} (h : takeBlock r s = some (n, u)) :
    Same [.store, .notices] s u := by
  unfold takeBlock at h
  split at h
  · cases h
  · injection h with h; injection h with _ h
    exact h ▸ ((same_withStore _).mono (by simp)).trans same_storeLowTest

/-! ### Cue Monitor -/

theorem same_lampAction (f : Nat) : Same [.cues, .mail] s (lampAction f s) := by
  unfold lampAction
  dsimp only
  split
  · exact .after (same_sendFlash _) (by simp) ((same_withCues _).mono (by simp))
  · exact (same_withCues _).mono (by simp)

theorem same_headFlagAction (f : Nat) : Same [.cues, .mail] s (headFlagAction f s) := by
  unfold headFlagAction
  dsimp only
  split
  · exact .after (same_sendCueFlag _) (by simp) ((same_withCues _).mono (by simp))
  · exact (same_withCues _).mono (by simp)

theorem same_expiryAction (a : ExpiryAction) : Same [.cues, .mail] s (expiryAction a s) := by
  cases a
  · exact Same.rfl
  · exact same_sendStop.mono (by simp)
  · exact same_lampAction _

theorem same_expireTimer (n : TimerNo) : Same [.cues, .mail, .notices] s (expireTimer n s) :=
  .after (same_withCues _) (by simp) (.after (same_expiryAction _) (by simp) (.after same_raiseExpired (by simp)
    ((same_withCues _).mono (by simp))))

theorem same_endFlash : Same [.cues, .mail] s (endFlash s) := by
  unfold endFlash
  split
  · exact ((same_withCues _).mono (by simp)).trans ((same_sendFlash _).mono (by simp))
  · exact Same.rfl

theorem same_endCueFlag : Same [.cues, .mail] s (endCueFlag s) := by
  unfold endCueFlag
  split
  · exact ((same_withCues _).mono (by simp)).trans ((same_sendCueFlag _).mono (by simp))
  · exact Same.rfl

/-- The Cue Monitor's due work, each expiry with the transmitter's turn (R183). -/
theorem same_finishCueWork (hw : s.Waits) (h : Same ps s t) (he : .ending ∉ ps)
    (hq : [.cues, .mail, .notices, .sending] ⊆ ps) : Same ps s (finishCueWork t) := by
  have hc : [Part.cues, .mail] ⊆ ps := List.Subset.trans (by simp) hq
  refine Same.foldlOf (fun u n hu => ?_) _ _ (.after same_endCueFlag hc (.after same_endFlash hc h))
  unfold expireIfDue
  split
  · exact same_sendIfIdle hw (.after (same_expireTimer n) (List.Subset.trans (by simp) hq) hu) he
      (hq (by simp))
  · exact hu

theorem same_setQueue (q : List CueEntry) : Same [.cues] s (setQueue q s) := same_withCues _

theorem same_rebuild : Same [.cues] s (rebuild s) := same_withCues _

theorem same_drainCueMail : Same [.cues, .mail] s (drainCueMail s) := by
  unfold drainCueMail
  split
  · exact Same.rfl
  · exact ((same_withMail _).mono (by simp)).trans (same_rebuild.mono (by simp))

theorem same_cueReady (hw : s.Waits) (h : Same ps s t) (he : .ending ∉ ps)
    (hq : [.cues, .mail, .notices, .sending] ⊆ ps) : Same ps s (cueReady t) :=
  .after same_drainCueMail (List.Subset.trans (by simp) hq) (same_finishCueWork hw h he hq)

theorem same_timerOf (n : Nat) {f : TimerNo → State → State} (h : ∀ m u, Same [.cues] u (f m u)) :
    Same [.cues] s (timerOf n f s) := by
  unfold timerOf
  split
  · exact h _ _
  · exact Same.rfl

theorem same_markerAction (k : MarkerKind) (n : Nat) : Same [.cues, .mail] s (markerAction k n s) := by
  have h (f : TimerNo → State → State) (hf : ∀ m u, Same [.cues] u (f m u)) : Same [.cues, .mail] s (timerOf n f s) :=
    (same_timerOf n hf).mono (by simp)
  cases k
  · exact Same.rfl
  · exact Same.rfl
  · exact h _ fun _ _ => same_withCues _
  · exact h _ fun _ _ => same_withCues _
  · exact same_lampAction _
  · exact same_headFlagAction _

theorem same_fire (e : CueEntry) : Same [.cues, .mail, .notices] s (fire e s) :=
  ((same_withCues _).mono (by simp)).trans (((same_raise _).mono (by simp)).trans
    ((same_markerAction _ _).mono (by simp)))

theorem same_passLines (mode : CheckMode) :
    ∀ (bs : List Nat) (s : State), Same [.cues, .mail, .notices] s (passLines mode bs s).1
  | [], s => Same.rfl
  | b :: bs, s => by
    have hd : Same [.cues, .mail, .notices] s (dropEntry b s) := (same_setQueue _).mono (by simp)
    unfold passLines
    split
    · exact same_passLines mode bs _
    · dsimp only
      split
      · exact hd.trans (same_passLines mode bs _)
      · split
        · exact hd.trans (same_fire _)
        · exact (hd.trans (same_fire _)).trans (same_passLines mode bs _)

/-- A passage check changes the Cue Monitor, what it sends and the notices it raises; never a position. -/
theorem same_passageCheck (a b : Pos) (fwd : Bool) (mode : CheckMode) (hw : s.Waits) (h : Same ps s t)
    (he : .ending ∉ ps) (hq : [.cues, .mail, .notices, .sending] ⊆ ps) :
    Same ps s (passageCheck a b fwd mode t).1 := by
  have hr := same_cueReady hw h he hq
  unfold passageCheck
  dsimp only
  split
  · exact hr
  · split
    · exact .after (same_passLines _ _ _) (List.Subset.trans (by simp) hq) hr
    · exact .after (same_setQueue _) (List.Subset.trans (by simp) hq) hr

/-! ### Scroll Engine -/

theorem same_enterHalted (c : HaltCause) : Same [.engine, .notices] s (enterHalted c s) := by
  unfold enterHalted
  split
  · exact Same.rfl
  · exact ((same_withEngine _).mono (by simp)).trans ((same_raise _).mono (by simp))

theorem same_designate : Same [.engine, .mail] s (designate s) := by
  unfold designate
  split
  · exact (same_withEngine _).mono (by simp)
  · split
    · exact Same.rfl
    · split
      · exact Same.rfl
      · exact ((same_withEngine _).mono (by simp)).trans ((same_sendScript _).mono (by simp))

theorem same_jump (p : Option Pos) : Same [.engine, .mail] s (jump p s) :=
  ((same_withEngine _).mono (by simp)).trans (same_designate.trans (same_sendJumped.mono (by simp)))

/-- What an advance or a jog changes. -/
abbrev travelParts : List Part := [.engine, .cues, .mail, .notices, .sending]

theorem same_travelSpan (mode : CheckMode) (fwd : Bool) (a b : Pos) (hw : s.Waits) (h : Same travelParts s t) :
    Same travelParts s (travelSpan mode fwd a b t).1 := by
  have hc := same_passageCheck a b fwd mode hw h (by simp) (by simp)
  unfold travelSpan
  dsimp only
  split <;> exact .after (same_withEngine _) (by simp) hc

theorem same_advanceBy (v : Int) (x : Travel) (fwd : Bool) (p : Pos) (hw : s.Waits) (ht : Same travelParts s t) :
    Same travelParts s (advanceBy v x fwd p t) := by
  have h (mode : CheckMode) := same_travelSpan mode fwd p x.stop hw
    (.after (same_withEngine { t.engine with velocity := v }) (by simp) ht)
  unfold advanceBy
  generalize (if t.engine.motion = .gliding then CheckMode.silent else .fire) = mode
  specialize h mode
  dsimp only
  generalize travelSpan mode fwd p x.stop (t.withEngine { t.engine with velocity := v }) = r at *
  split
  · exact .after (same_enterHalted _) (by simp) h
  · split
    · exact .after (same_enterHalted _) (by simp) h
    · exact h

theorem same_advanceToGoal (g : Goal) (p : Pos) (r : Reach) (hw : s.Waits) (ht : Same travelParts s t) :
    Same travelParts s (advanceToGoal g p r t) := by
  have h (e : Engine) : Same travelParts s (t.withEngine e) := .after (same_withEngine e) (by simp) ht
  unfold advanceToGoal
  dsimp only
  split
  · split <;> exact same_advanceBy _ _ _ _ hw (h _)
  · exact same_advanceBy _ _ _ _ hw (h _)

theorem same_advance (hw : s.Waits) (ht : Same travelParts s t) : Same travelParts s (advance t) := by
  unfold advance
  split
  · exact ht
  · split
    · exact ht
    · dsimp only
      split
      · exact ht
      · split
        · exact .after (same_withEngine _) (by simp) ht
        · exact same_advanceBy _ _ _ _ hw ht
      · split
        · exact .after (same_enterHalted _) (by simp) ht
        · exact same_advanceBy _ _ _ _ hw ht
      all_goals
        split
        · exact same_advanceToGoal _ _ _ hw ht
        · exact ht

theorem same_reportAir : Same [.mail] s (reportAir s) := by
  unfold reportAir
  split
  · exact Same.rfl
  · split
    · exact same_sendScript _
    · exact Same.rfl

theorem same_frameAdvance (f : Half) (hw : s.Waits) (h : Same travelParts s t) :
    Same travelParts s (frameAdvance f t) :=
  .after (same_sendPublish _) (by simp) (.after same_designate (by simp)
    (same_advance hw (.after same_reportAir (by simp) h)))

theorem same_endGoalIf (g : Nat → Bool) : Same [.engine, .notices] s (endGoalIf g s) := by
  unfold endGoalIf
  split
  · split
    · exact same_enterHalted _
    · exact Same.rfl
  · exact Same.rfl

theorem same_previewAfterDelete (k : Slot) (i : Nat) (run : List Nat) :
    Same [.engine] s (previewAfterDelete k i run s) := by
  unfold previewAfterDelete
  split
  · split
    · exact same_withEngine _
    · exact Same.rfl
  · exact Same.rfl

theorem same_liveAfterDelete (k : Slot) (i : Nat) (run : List Nat) :
    Same [.engine, .mail] s (liveAfterDelete k i run s) := by
  unfold liveAfterDelete
  split
  · split
    · split
      · exact same_jump _
      · exact Same.rfl
    · exact Same.rfl
  · exact Same.rfl

theorem same_takeDelete (k : Slot) (i : Nat) (run : List Nat) :
    Same [.engine, .mail, .notices] s (takeDelete k i run s) :=
  .after (same_endGoalIf _) (by simp) (.after (same_liveAfterDelete _ _ _) (by simp)
    ((same_previewAfterDelete _ _ _).mono (by simp)))

theorem same_takeIneligible (k : Slot) (i : Nat) : Same [.engine, .mail, .notices] s (takeIneligible k i s) := by
  unfold takeIneligible
  dsimp only
  refine Same.trans ?_ ((same_endGoalIf _).mono (by simp))
  split
  · exact ((same_enterHalted _).mono (by simp)).trans ((same_jump _).mono (by simp))
  · exact Same.rfl

theorem same_takeEligible : Same [.engine, .mail] s (takeEligible s) := by
  unfold takeEligible
  split
  · exact Same.rfl
  · split
    · exact same_jump _
    · exact Same.rfl

theorem same_takeReport (r : ScriptReport) : Same [.engine, .mail, .notices] s (takeReport r s) := by
  cases r
  · exact Same.rfl
  · exact same_takeDelete _ _ _
  · exact same_takeIneligible _ _
  · exact same_takeEligible.mono (by simp)
  · exact Same.rfl

theorem same_takeReports : Same [.engine, .mail, .notices] s (takeReports s) :=
  ((same_withMail _).mono (by simp)).trans (Same.foldl (fun _ _ =>
    ((same_withCause _).mono (by simp)).trans ((same_takeReport _).trans ((same_withCause _).mono (by simp)))) _ _)

theorem same_engineReady (hw : s.Waits) (h : Same ps s t) (he : .ending ∉ ps)
    (hq : [.engine, .mail, .notices, .sending] ⊆ ps) : Same ps s (engineReady t) := by
  unfold engineReady
  split
  · exact h
  · exact same_sendIfIdle hw (.after same_takeReports (List.Subset.trans (by simp) hq) h) he (hq (by simp))

theorem same_startStop : Same [.engine, .notices] s (startStop s) := by
  unfold startStop
  split
  · exact Same.rfl
  · split
    · split
      · unfold beginStep
        split
        · exact (same_withEngine _).mono (by simp)
        · exact Same.rfl
      · exact (same_withEngine _).mono (by simp)
    · exact (same_withEngine _).mono (by simp)
    · exact (same_withEngine _).mono (by simp)
    all_goals exact same_enterHalted _

theorem same_jogHalt : Same [.engine, .notices] s (jogHalt s) := by
  unfold jogHalt
  split
  · exact Same.rfl
  · exact same_enterHalted _

theorem same_jog (d : Int) (hw : s.Waits) (h : Same travelParts s t) : Same travelParts s (jog d t) := by
  have hh : Same travelParts s (jogHalt t) := .after same_jogHalt (by simp) h
  have ht (p : Pos) (x : Pos) := same_travelSpan .fire (decide (0 < d)) p x hw
    (.after same_jogHalt (by simp) (same_cueReady hw h (by simp) (by simp)))
  unfold jog
  split
  · exact h
  · split
    · exact hh
    · split
      · exact hh
      · refine .after same_designate (by simp) ?_
        split
        · exact .after (same_enterHalted _) (by simp) (ht _ _)
        · exact ht _ _

theorem same_goTo (b f : Nat) (p : Pos) : Same [.engine, .mail, .notices] s (goTo b f p s) := by
  unfold goTo
  split
  · refine Same.trans ?_ ((same_jump _).mono (by simp))
    split
    · exact (same_withEngine _).mono (by simp)
    · exact (same_enterHalted _).mono (by simp)
  · exact (same_withEngine _).mono (by simp)

/-! ### Drive Arbiter -/

theorem same_reportStanding (a b : Arbiter) (p : PortNo) : Same [.mail] s (reportStanding a b s p) := by
  unfold reportStanding
  split
  · exact Same.rfl
  · exact same_sendStanding _ _ _

theorem same_putArbiter (b : Arbiter) : Same [.arbiter, .mail, .notices] s (putArbiter b s) := by
  unfold putArbiter
  dsimp only
  have h := ((same_withArbiter (s := s) b.settle).mono (qs := [.arbiter, .mail, .notices]) (by simp)).trans
    (Same.foldl (fun u p => (same_reportStanding s.arbiter b.settle p (s := u)).mono (by simp)) (List.finRange 4) _)
  split
  · exact h.trans ((same_raise _).mono (by simp))
  · exact h

/-! ### Control Ports -/

theorem same_updatePort (p : PortNo) (f : Port → Port) : Same [.ports] s (updatePort p f s) := same_withPort _ _

theorem same_setChange (f : ChangeFlag) (p : PortNo) : Same [.ports, .notices] s (setChange f p s) := by
  unfold setChange
  dsimp only
  split
  · exact Same.rfl
  · exact ((same_withPort _ _).mono (by simp)).trans ((same_raise _).mono (by simp))

theorem same_leaveEnabled (x : PortState) (p : PortNo) : Same [.ports, .mail, .notices] s (leaveEnabled x p s) := by
  unfold leaveEnabled
  split
  · exact ((same_setChange _ _).mono (by simp)).trans ((same_sendArbiter _ _).mono (by simp))
  · exact Same.rfl

theorem same_enterFaulted (c : FaultCause) (p : PortNo) : Same [.ports, .mail, .notices] s (enterFaulted c p s) :=
  ((same_updatePort _ _).mono (by simp)).trans (((same_setChange _ _).mono (by simp)).trans (same_leaveEnabled _ _))

theorem same_sendIdle (p : PortNo) : Same [.ports, .mail] s (sendIdle p s) := by
  unfold sendIdle
  split
  · exact ((same_updatePort _ _).mono (by simp)).trans ((same_sendArbiter _ _).mono (by simp))
  · exact Same.rfl

theorem same_silenceFault (p : PortNo) (hw : s.Waits) (h : Same [.ports, .mail, .notices, .sending] s t) :
    Same [.ports, .mail, .notices, .sending] s (silenceFault p t) := by
  unfold silenceFault
  split
  · exact same_sendIfIdle hw (.after (same_enterFaulted _ _) (by simp) h) (by simp) (by simp)
  · exact h

theorem same_portReady (p : PortNo) (hw : s.Waits) (h : Same [.ports, .mail, .notices, .sending] s t) :
    Same [.ports, .mail, .notices, .sending] s (portReady p t) :=
  same_silenceFault p hw (.after (same_sendIdle _) (by simp) h)

theorem same_portEvent (p : PortNo) {f : State → State} (hw : s.Waits)
    (h : ∀ u, Same [.ports, .mail, .notices] u (f u)) : Same [.ports, .mail, .notices, .sending] s (portEvent p f s) :=
  same_eventOf hw (fun u hu => .after (h _) (by simp) (same_portReady p hw hu)) (by simp) (by simp)

theorem same_enterEnabled (p : PortNo) : Same [.ports, .mail] s (enterEnabled p s) :=
  ((same_updatePort _ _).mono (by simp)).trans ((same_sendArbiter _ _).mono (by simp))

theorem same_sendSome (p : PortNo) (x : Option PortMsg) : Same [.mail] s (sendSome p x s) := by
  cases x
  · exact Same.rfl
  · exact same_sendArbiter _ _

theorem same_takeHello (k : Kind) (p : PortNo) : Same [.ports, .mail] s (takeHello k p s) := by
  have h (f : Port → Port) {u : State} (hu : Same [.ports, .mail] s u) : Same [.ports, .mail] s (updatePort p f u) :=
    .after (same_updatePort _ _) (by simp) hu
  unfold takeHello
  dsimp only
  split
  · split
    · exact .after (same_enterEnabled _) (by simp) (h _ (h _ Same.rfl))
    · exact h _ (h _ Same.rfl)
  · split
    · exact h _ (h _ (h _ Same.rfl))
    · exact h _ (h _ Same.rfl)

theorem same_formInput (p : PortNo) (d : DataReport) : Same [.ports, .mail] s (formInput p d s) := by
  have h := fun (x : Option PortMsg) (u : State) => (same_sendSome p x (s := u)).mono (qs := [.ports, .mail]) (by simp)
  have hp := fun (f : Port → Port) (u : State) => (same_updatePort p f (s := u)).mono (qs := [.ports, .mail]) (by simp)
  unfold formInput
  cases d
  · exact (h _ _).trans ((h _ _).trans (h _ _))
  · exact (hp _ _).trans ((hp _ _).trans ((h _ _).trans (h _ _)))
  · exact (hp _ _).trans ((hp _ _).trans ((h _ _).trans (h _ _)))

theorem same_takeData (d : DataReport) (p : PortNo) : Same [.ports, .mail] s (takeData d p s) := by
  have h (f : Port → Port) {u : State} (hu : Same [.ports, .mail] s u) : Same [.ports, .mail] s (updatePort p f u) :=
    .after (same_updatePort _ _) (by simp) hu
  have hf {u : State} (hu : Same [.ports, .mail] s u) : Same [.ports, .mail] s (formInput p d u) :=
    .after (same_formInput _ _) (by simp) hu
  unfold takeData
  dsimp only
  split
  · split <;> split
    · exact hf (.after (same_sendArbiter _ _) (by simp) (h _ (h _ (h _ Same.rfl))))
    · exact hf (h _ (h _ (h _ Same.rfl)))
    · exact .after (same_sendArbiter _ _) (by simp) (h _ (h _ (h _ Same.rfl)))
    · exact h _ (h _ (h _ Same.rfl))
  · exact h _ Same.rfl

theorem same_takeReportFrame (p : PortNo) (k : Byte) (b : List Byte) :
    Same [.ports, .mail] s (takeReportFrame p k b s) := by
  unfold takeReportFrame
  dsimp only
  split
  · exact same_takeHello _ _
  · split
    · exact same_takeData _ _
    · exact Same.rfl
  · exact Same.rfl

theorem same_portChars (p : PortNo) (cs : List LineChar) : Same [.ports, .mail] s (portChars p cs s) := by
  refine Same.foldl (fun u c => ?_) _ _
  unfold portChar
  dsimp only
  split
  · split
    · exact .after (same_takeReportFrame _ _ _) (by simp) ((same_updatePort _ _).mono (by simp))
    · exact (same_updatePort _ _).mono (by simp)
  · exact Same.rfl

/-! ### Script Table -/

theorem same_designation (k : Slot) : Same [.script, .notices] s (designation k s) := by
  unfold designation
  dsimp only
  split
  · exact ((same_withScript _).mono (by simp)).trans ((same_raise _).mono (by simp))
  · exact Same.rfl

theorem same_airFrame (k : Slot) : Same [.script] s (airFrame k s) := by
  unfold airFrame
  dsimp only
  split
  · exact same_withScript _
  · exact Same.rfl

theorem same_changeScript (lead : List ScriptReport) (k : Slot) (x : ScriptTable) :
    Same [.script, .mail] s (changeScript lead k x s) :=
  ((same_withScript _).mono (by simp)).trans ((same_sendReports _).mono (by simp))

theorem same_liveSlotCheck (k : Slot) : Same [.script, .engine, .mail, .notices] s (liveSlotCheck k s) := by
  unfold liveSlotCheck
  dsimp only
  refine Same.trans (t := takeReports s) (same_takeReports.mono (by simp)) ?_
  split
  · exact (same_designation _).mono (by simp)
  · exact Same.rfl

theorem same_noteEdit (e : EditKind) (k : Slot) (i : Nat) (d : Int) : Same [.script, .notices] s (noteEdit e k i d s) := by
  unfold noteEdit
  refine Same.trans (t := noteChange k s) ?_ ?_
  · unfold noteChange
    dsimp only
    split
    · exact ((same_withScript _).mono (by simp)).trans ((same_raise _).mono (by simp))
    · exact Same.rfl
  · unfold noteWatch
    split
    · exact ((same_withScript _).mono (by simp)).trans ((same_raise _).mono (by simp))
    · exact Same.rfl

theorem same_offerFault (r : FaultRecord) : Same [.script, .notices] s (offerFault r s) := by
  unfold offerFault
  split
  · exact Same.rfl
  · exact ((same_withScript _).mono (by simp)).trans ((same_raise _).mono (by simp))

/-! ### Frame Clock -/

theorem same_frameStart : Same [.clock, .mail] s (frameStart s) :=
  ((same_withClock _).mono (by simp)).trans (same_sendFrameStart.mono (by simp))

theorem same_lockedPulse : Same [.clock, .mail] s (lockedPulse s) := by
  unfold lockedPulse
  dsimp only
  split
  · exact same_frameStart.trans ((same_withClock _).mono (by simp))
  · exact Same.rfl

theorem same_takePulse : Same [.clock, .mail, .notices] s (takePulse s) := by
  have h (x : FrameClock) : Same [.clock, .mail, .notices] s (s.withClock x) := (same_withClock _).mono (by simp)
  have hl {u : State} (hu : Same [.clock, .mail, .notices] s u) : Same [.clock, .mail, .notices] s (lockedPulse u) :=
    .after same_lockedPulse (by simp) hu
  have hh : Same [.clock, .mail, .notices] s (huntingPulse s) := by
    unfold huntingPulse
    dsimp only
    split
    · exact h _
    · generalize (if s.clock.good _ _ = true then s.clock.goodRun + 1 else 0) = run
      split
      · split
        · exact hl (.after (same_raise _) (by simp) (h _))
        · exact hl (h _)
      · exact h _
  unfold takePulse
  split
  · exact Same.rfl
  · exact hl (h _)
  · exact hh
  · exact hh
  · exact Same.rfl

/-! ### Head Links and Link Controller -/

theorem same_updateHead (h : HeadNo) (f : Head → Head) : Same [.heads] s (updateHead h f s) := same_withHead _ _

theorem same_takePublish (x : Publish) (h : HeadNo) : Same [.heads] s (takePublish x h s) := by
  unfold takePublish
  dsimp only
  split
  · exact same_withHead _ _
  · exact Same.rfl

theorem same_takeHeadFrame (h : HeadNo) (k : Byte) (b : List Byte) :
    Same [.heads, .notices] s (takeHeadFrame h k b s) := by
  unfold takeHeadFrame
  split
  · unfold takeReady
    dsimp only
    split
    · exact (same_withHead _ _).mono (by simp)
    · exact ((same_withHead _ _).mono (by simp)).trans ((same_raise _).mono (by simp))
  · split
    · exact (same_updateHead _ _).mono (by simp)
    · exact Same.rfl

theorem same_headChars (h : HeadNo) (cs : List LineChar) : Same [.heads, .notices] s (headChars h cs s) := by
  refine Same.trans (t := headGap h s) ?_ (Same.foldl (fun u c => ?_) _ _)
  · unfold headGap
    split
    · exact (same_updateHead _ _).mono (by simp)
    · exact Same.rfl
  · unfold headChar
    dsimp only
    split
    · exact .after (same_takeHeadFrame _ _ _) (by simp) ((same_updateHead _ _).mono (by simp))
    all_goals exact (same_updateHead _ _).mono (by simp)

/-- A link fault has the transmitter's turn (R183). -/
theorem same_linkFault (c : LinkErrorCause) (hw : s.Waits) (h : Same [.link, .notices, .sending] s t) :
    Same [.link, .notices, .sending] s (linkFault c t) :=
  same_sendIfIdle hw (.after (same_raise .linkFault) (by simp) (.after (same_withLink _) (by simp) h))
    (by simp) (by simp)

theorem same_hostGap (hw : s.Waits) (h : Same [.link, .notices, .sending] s t) :
    Same [.link, .notices, .sending] s (hostGap t) := by
  unfold hostGap
  split
  · exact same_linkFault _ hw (.after (same_withLink _) (by simp) h)
  · exact h

theorem same_offerFrame (k : Byte) (b : List Byte) (hw : s.Waits) (h : Same [.link, .notices, .sending] s t) :
    Same [.link, .notices, .sending] s (offerFrame k b t) := by
  unfold offerFrame
  dsimp only
  split
  · exact .after (same_withLink _) (by simp) h
  · split
    · exact .after (same_withLink _) (by simp) h
    · exact same_linkFault _ hw h

theorem same_hostChars (cs : List LineChar) (hw : s.Waits) (h : Same [.link, .notices, .sending] s t) :
    Same [.link, .notices, .sending] s (hostChars cs t) := by
  refine Same.foldlOf (fun u c hu => ?_) _ _ (same_hostGap hw h)
  have hr (x : LinkRx) : Same [.link, .notices, .sending] s (u.withLink { u.link with rx := x }) :=
    .after (same_withLink _) (by simp) hu
  unfold hostChar
  dsimp only
  split
  · exact same_offerFrame _ _ hw (hr _)
  · exact same_linkFault _ hw (hr _)
  · exact hr _

/-- The transmitter's own choice: the queues of the Link Controller, and the expired set (R151, R183). -/
theorem same_transmitNext : Same [.link, .notices, .sending, .ending, .cues] s (transmitNext s) := by
  have h (n : Notice) (rest : List Notice) (hn : .timerExpired ∈ rest → .timerExpired ∈ s.link.notices) :
      Same [.link, .notices, .sending, .ending, .cues] s (sendNotice n rest s) := by
    constructor <;> simp
  unfold transmitNext
  split
  · constructor <;> simp [sendReply]
  · rename_i n rest _ hn
    exact h n rest fun m => by simp [hn, m]
  · constructor <;> simp

/-- A request changes the queues, what its owner changes, and the frame being sent. -/
theorem same_runRequestIf {meant : Request → Bool} {owner : List Byte → State → Answer} (hw : s.Waits)
    (h : ∀ b u, Same (.link :: ps) u (owner b u).state) (he : .ending ∉ ps) :
    Same (.sending :: .link :: ps) s (runRequestIf meant owner s) := by
  have hp : ∀ (r : Reply) (b : List Reply) (u : State), Same [.link] u (placeReply r b u) := fun r b u => by
    constructor <;> simp [placeReply]
  unfold runRequestIf
  split
  · exact Same.rfl
  · split
    · refine same_event hw (fun u => ?_) (by simpa using he)
      dsimp only
      refine Same.trans (t := (if bodyFits _ = true then owner _ u else refuse .malformed u).state) ?_
        ((hp _ _ _).mono (by simp))
      split
      · exact h _ _
      · exact Same.rfl
    · exact Same.rfl

theorem same_runRequest {n : Nat} {owner : List Byte → State → Answer} (hw : s.Waits)
    (h : ∀ b u, Same (.link :: ps) u (owner b u).state) (he : .ending ∉ ps) :
    Same (.sending :: .link :: ps) s (runRequest n owner s) :=
  same_runRequestIf hw h he

end Sys2Proof.Machine
end

