-- ==== Sys2Proof/Laws/Blocks.lean ====
section
/-! SUPPORT. The Text Store's blocks: what a write does to every read, and that every operation keeps the canonical
form, which the reset store has. -/

namespace Sys2Proof.Machine

/-! ### One write -/

/-- A write leaves every other block as it reads. -/
theorem blockAt_write_other {bs : List (Nat × LineBlock)} {n m : Nat} {x : LineBlock} (h : m ≠ n) :
    blockAt (writeBlock bs n x) m = blockAt bs m := by
  induction bs with
  | nil => unfold writeBlock; split <;> simp [blockAt, Ne.symm h]
  | cons c bs ih =>
    obtain ⟨k, b⟩ := c
    unfold writeBlock
    split
    · simp [blockAt, ih]
    · split
      · rename_i hk; subst hk
        split <;> simp [blockAt, Ne.symm h]
      · split <;> simp [blockAt, Ne.symm h]

/-- A block that is not listed reads as power-on left it. -/
theorem blockAt_absent {bs : List (Nat × LineBlock)} {n : Nat} (h : ∀ c ∈ bs, n < c.1) : blockAt bs n = .blank := by
  induction bs with
  | nil => rfl
  | cons c bs ih =>
    have h1 := h c (by simp)
    simp only [blockAt]
    rw [if_neg (by omega)]
    exact ih fun d hd => h d (by simp [hd])

/-- A written block reads as written. -/
theorem blockAt_write_self {bs : List (Nat × LineBlock)} {n : Nat} {x : LineBlock} (h : BlocksWf bs) :
    blockAt (writeBlock bs n x) n = x := by
  induction bs with
  | nil => unfold writeBlock; split <;> simp_all [blockAt]
  | cons c bs ih =>
    obtain ⟨k, b⟩ := c
    obtain ⟨hs, hb⟩ := h
    rw [List.pairwise_cons] at hs
    unfold writeBlock
    split
    · rename_i hk
      simp only [blockAt]
      rw [if_neg (by omega)]
      exact ih ⟨hs.2, fun d hd => hb d (by simp [hd])⟩
    · split
      · rename_i hk; subst hk
        split
        · rename_i hx; rw [hx]; exact blockAt_absent hs.1
        · simp [blockAt]
      · rename_i h1 h2
        split
        · rename_i hx; rw [hx]
          refine blockAt_absent fun d hd => ?_
          rcases List.mem_cons.1 hd with rfl | hd
          · show n < k; omega
          · have := hs.1 d hd
            show n < d.1; simp only at this; omega
        · simp [blockAt]

/-- The numbers listed after a write: those listed before, and the one written. -/
theorem mem_writeBlock {bs : List (Nat × LineBlock)} {n : Nat} {x : LineBlock} {c : Nat × LineBlock}
    (h : c ∈ writeBlock bs n x) : c ∈ bs ∨ c = (n, x) ∧ x ≠ .blank := by
  induction bs with
  | nil =>
    unfold writeBlock at h
    split at h <;> simp_all
  | cons d bs ih =>
    obtain ⟨k, b⟩ := d
    unfold writeBlock at h
    split at h
    · rcases List.mem_cons.1 h with rfl | h
      · exact .inl (by simp)
      · rcases ih h with h | h
        · exact .inl (by simp [h])
        · exact .inr h
    · split at h
      · split at h
        · exact .inl (by simp [h])
        · rcases List.mem_cons.1 h with rfl | h
          · exact .inr ⟨rfl, by assumption⟩
          · exact .inl (by simp [h])
      · split at h
        · exact .inl h
        · rcases List.mem_cons.1 h with rfl | h
          · exact .inr ⟨rfl, by assumption⟩
          · exact .inl h

/-- A write keeps the canonical form. -/
theorem writeBlock_wf {bs : List (Nat × LineBlock)} (n : Nat) (x : LineBlock) (h : BlocksWf bs) :
    BlocksWf (writeBlock bs n x) := by
  refine ⟨?_, fun c hc => ?_⟩
  · obtain ⟨hs, -⟩ := h
    induction bs with
    | nil => unfold writeBlock; split <;> simp
    | cons d bs ih =>
      obtain ⟨k, b⟩ := d
      have h2 := List.pairwise_cons.1 hs
      unfold writeBlock
      split
      · rename_i hk
        refine List.pairwise_cons.2 ⟨fun c hc => ?_, ih h2.2⟩
        rcases mem_writeBlock hc with hc | ⟨rfl, -⟩
        · exact h2.1 c hc
        · exact hk
      · split
        · rename_i hk; subst hk
          split
          · exact h2.2
          · exact List.pairwise_cons.2 ⟨h2.1, h2.2⟩
        · split
          · exact hs
          · refine List.pairwise_cons.2 ⟨fun c hc => ?_, hs⟩
            rcases List.mem_cons.1 hc with rfl | hc
            · show n < k; omega
            · have := h2.1 c hc
              show n < c.1; simp only at this; omega
  · rcases mem_writeBlock hc with hc | ⟨rfl, hx⟩
    · exact h.2 c hc
    · exact hx

/-! ### The store's operations keep the canonical form -/

theorem returnOne_wf {t : TextStore} (n : Nat) (h : BlocksWf t.blocks) : BlocksWf (t.returnOne n).blocks :=
  writeBlock_wf _ _ h

theorem foldl_returnOne_wf (run : List Nat) {t : TextStore} (h : BlocksWf t.blocks) :
    BlocksWf (run.foldl TextStore.returnOne t).blocks := by
  induction run generalizing t with
  | nil => exact h
  | cons n run ih => exact ih (returnOne_wf n h)

theorem storeLowTest_blocks (s : State) : (storeLowTest s).store.blocks = s.store.blocks := by
  unfold storeLowTest; split <;> rfl

theorem rearmTest_blocks (s : State) : (rearmTest s).store.blocks = s.store.blocks := by
  unfold rearmTest; split <;> rfl

theorem returnRun_wf (run : List Nat) {s : State} (h : BlocksWf s.store.blocks) :
    BlocksWf (returnRun run s).store.blocks := by
  unfold returnRun; rw [rearmTest_blocks]; exact foldl_returnOne_wf run h

theorem rewriteBlock_wf (n : Nat) (r : LineRecord) {s : State} (h : BlocksWf s.store.blocks) :
    BlocksWf (rewriteBlock n r s).store.blocks := writeBlock_wf _ _ h

theorem takeBlock_wf {r : LineRecord} {s t : State} {n : Nat} (h : BlocksWf s.store.blocks)
    (ht : takeBlock r s = some (n, t)) : BlocksWf t.store.blocks := by
  unfold takeBlock at ht
  split at ht
  · cases ht
  · simp only [Option.some.injEq, Prod.mk.injEq] at ht
    obtain ⟨rfl, rfl⟩ := ht
    rw [storeLowTest_blocks]; exact writeBlock_wf _ _ h

theorem scriptReset_wf {t : TextStore} (all : Bool) (h : BlocksWf t.blocks) : BlocksWf (t.scriptReset all).blocks := by
  obtain ⟨hs, -⟩ := h
  refine ⟨List.Pairwise.filter _ ?_, fun c hc => by simpa using (List.mem_filter.1 hc).2⟩
  rw [List.pairwise_map]
  refine hs.imp fun {a b} hab => ?_
  split <;> split <;> exact hab

/-- The store after reset is in canonical form. -/
theorem reset_wf : BlocksWf State.reset.store.blocks := ⟨List.Pairwise.nil, fun _ h => by cases h⟩

/-! ### What the operations do to every read -/

/-- A Take Block of the pool's head (R7, R11). -/
theorem takeBlock_head {r : LineRecord} {s : State} {n : Nat} {rest : List Nat} (h : s.store.pool = n :: rest) :
    takeBlock r s = some (n, blockTaken s n rest r) := by
  simp only [takeBlock, h, blockTaken, storeLowTest, TextStore.freeCount]
  by_cases ha : s.store.armed = true
  · by_cases hc : rest.length < s.store.threshold
    · have : ¬ s.store.threshold ≤ rest.length := by omega
      simp [ha, hc, this, raise, State.withStore, State.withLink, TextStore.read]
    · have : s.store.threshold ≤ rest.length := by omega
      simp [ha, hc, this, State.withStore, TextStore.read]
  · simp only [Bool.not_eq_true] at ha
    simp [ha, State.withStore, TextStore.read]

/-- A Return Run and the blocks it names (R8). -/
theorem foldl_returnOne_read (run : List Nat) (hr : run.Nodup) {t : TextStore} (h : BlocksWf t.blocks) (m : Nat) :
    (run.foldl TextStore.returnOne t).read m =
      if m ∈ run then { gen := (t.read m).gen + 1, record := none } else t.read m := by
  induction run generalizing t with
  | nil => simp
  | cons n run ih =>
    rw [List.nodup_cons] at hr
    rw [List.foldl_cons, ih hr.2 (returnOne_wf n h)]
    by_cases hm : m = n
    · subst hm
      simp only [hr.1, if_false, List.mem_cons, true_or, if_true]
      exact blockAt_write_self h
    · have : (t.returnOne n).read m = t.read m := blockAt_write_other hm
      simp only [List.mem_cons, hm, false_or, this]

theorem foldl_returnOne_pool (run : List Nat) (t : TextStore) :
    (run.foldl TextStore.returnOne t).pool = t.pool ++ run ∧ (run.foldl TextStore.returnOne t).armed = t.armed ∧
      (run.foldl TextStore.returnOne t).threshold = t.threshold := by
  induction run generalizing t with
  | nil => simp
  | cons n run ih =>
    obtain ⟨h1, h2, h3⟩ := ih (t.returnOne n)
    exact ⟨by rw [List.foldl_cons, h1]; simp [TextStore.returnOne], h2, h3⟩

end Sys2Proof.Machine
end

