-- ==== Sys2Proof/Laws/Ready.lean ====
section
/-! SUPPORT. A block that has nothing waiting and nothing unfinished is ready as it stands, and what an event comes to
when its message stands at the head of its channel. -/

namespace Sys2Proof.Machine

variable {s : State}

/-- No report waits: taking them all takes nothing, and the engine is ready. -/
theorem takeReports_none (h : s.mail.engineReports = []) : takeReports s = s := by
  unfold takeReports
  rw [h, List.foldl_nil]
  show { s with mail := { s.mail with engineReports := [] } } = s
  rw [← h]

theorem engineReady_none (h : s.mail.engineReports = []) : engineReady s = s := by simp [engineReady, h]

/-! ### The reports that wait at the engine (R40; logs 8 and 50) -/

/-- The state with other reports waiting at the engine. -/
abbrev State.withReports (s : State) (rs : List (Msg ScriptReport)) : State :=
  s.withMail { s.mail with engineReports := rs }

theorem enterHalted_withReports (c : HaltCause) (rs : List (Msg ScriptReport)) :
    enterHalted c (s.withReports rs) = (enterHalted c s).withReports rs := by
  unfold enterHalted
  rw [apply_ite (State.withReports · rs)]
  rfl

theorem endGoalIf_withReports (gone : Nat → Bool) (rs : List (Msg ScriptReport)) :
    endGoalIf gone (s.withReports rs) = (endGoalIf gone s).withReports rs := by
  unfold endGoalIf
  dsimp only [State.withMail_engine]
  split
  · split
    · exact enterHalted_withReports _ _
    · rfl
  · rfl

theorem designate_withReports (rs : List (Msg ScriptReport)) :
    designate (s.withReports rs) = (designate s).withReports rs := by
  unfold designate
  dsimp only [State.withMail_engine, State.withMail_script]
  split
  · rfl
  · split
    · rfl
    · rw [apply_ite (State.withReports · rs)]
      rfl

theorem jump_withReports (p : Option Pos) (rs : List (Msg ScriptReport)) :
    jump p (s.withReports rs) = (jump p s).withReports rs :=
  congrArg sendJumped (designate_withReports (s := setLive p s) rs)

theorem takeReport_withReports (r : ScriptReport) (rs : List (Msg ScriptReport)) :
    takeReport r (s.withReports rs) = (takeReport r s).withReports rs := by
  cases r with
  | insert => rfl
  | orderChanged => rfl
  | delete k first run =>
    have hp : previewAfterDelete k first run (s.withReports rs) = (previewAfterDelete k first run s).withReports rs := by
      unfold previewAfterDelete
      dsimp only [State.withMail_engine, State.withMail_script]
      split
      · split <;> rfl
      · rfl
    have hl (u : State) :
        liveAfterDelete k first run (u.withReports rs) = (liveAfterDelete k first run u).withReports rs := by
      unfold liveAfterDelete
      dsimp only [State.withMail_engine, State.withMail_script]
      split
      · split
        · split
          · exact jump_withReports _ _
          · rfl
        · rfl
      · rfl
    simp only [takeReport, takeDelete, hp, hl, endGoalIf_withReports]
  | ineligible k index =>
    have h1 : (if s.engine.live.isSome ∧ s.engine.liveSlot = some k then
          jump (relocated s.script index) (enterHalted .scriptChange (s.withReports rs)) else s.withReports rs) =
        (if s.engine.live.isSome ∧ s.engine.liveSlot = some k then
          jump (relocated s.script index) (enterHalted .scriptChange s) else s).withReports rs := by
      split
      · rw [enterHalted_withReports, jump_withReports]
      · rfl
    exact (congrArg (fun u => endGoalIf (fun b => (u.script.locate b).map (·.1) = some k) u) h1).trans
      (endGoalIf_withReports _ _)
  | eligible k =>
    simp only [takeReport, takeEligible, State.withMail_engine, State.withMail_script]
    split
    · rfl
    · split
      · exact jump_withReports _ _
      · rfl

/-- Taking a report leaves the others waiting. -/
@[simp] theorem takeReport_engineReports (r : ScriptReport) :
    (takeReport r s).mail.engineReports = s.mail.engineReports :=
  congrArg (·.mail.engineReports) (takeReport_withReports (s := s) r s.mail.engineReports)

theorem takeAll_withCause (c : Bool) (rs : List (Msg ScriptReport)) :
    ∀ s : State, rs.foldl takeWaiting (s.withCause c) = (rs.foldl takeWaiting s).withCause c := by
  induction rs with
  | nil => exact fun _ => rfl
  | cons m rs ih => exact fun s => ih (takeWaiting s m)

theorem takeAll_engineReports (rs : List (Msg ScriptReport)) :
    ∀ s : State, (rs.foldl takeWaiting s).mail.engineReports = s.mail.engineReports := by
  induction rs with
  | nil => exact fun _ => rfl
  | cons m rs ih => exact fun s => (ih (takeWaiting s m)).trans (takeReport_engineReports m.body)

/-- No report is left waiting. -/
@[simp] theorem takeReports_engineReports : (takeReports s).mail.engineReports = [] := takeAll_engineReports _ _

/-- The mark of the event under way stays while the engine takes the reports. -/
theorem takeReports_withCause (c : Bool) : takeReports (s.withCause c) = (takeReports s).withCause c :=
  takeAll_withCause c s.mail.engineReports (s.withReports [])

/-- The engine takes the report at the head under its own mark, then those behind it. -/
theorem takeReports_cons {m : Msg ScriptReport} {rest : List (Msg ScriptReport)} (h : s.mail.engineReports = m :: rest) :
    takeReports s = (takeReports (takeReport m.body ((s.withReports rest).withCause m.req))).withCause s.cause := by
  have h1 : takeReport m.body ((s.withReports rest).withCause m.req) =
      (takeReport m.body ((s.withReports []).withCause m.req)).withReports rest :=
    takeReport_withReports (s := (s.withReports []).withCause m.req) m.body rest
  have h2 : (takeReport m.body ((s.withReports []).withCause m.req)).withReports [] =
      takeReport m.body ((s.withReports []).withCause m.req) :=
    (takeReport_withReports (s := (s.withReports []).withCause m.req) m.body []).symm
  have h3 : takeReports ((takeReport m.body ((s.withReports []).withCause m.req)).withReports rest) =
      rest.foldl takeWaiting (takeReport m.body ((s.withReports []).withCause m.req)) :=
    congrArg (rest.foldl takeWaiting) h2
  rw [h1, h3, ← takeAll_withCause, takeReports, h]
  rfl

/-- With a report waiting, the engine is ready once they are taken and the transmitter has had its turn (R183). -/
theorem engineReady_some {m : Msg ScriptReport} {rest : List (Msg ScriptReport)}
    (h : s.mail.engineReports = m :: rest) : engineReady s = sendIfIdle (takeReports s) := by
  simp [engineReady, h]

/-- Either way the engine takes what waits; the transmitter's turn changes neither the engine nor the script. -/
@[simp] theorem engineReady_engine : (engineReady s).engine = (takeReports s).engine := by
  cases h : s.mail.engineReports with
  | nil => rw [engineReady_none h, takeReports_none h]
  | cons m rest => rw [engineReady_some h, sendIfIdle_engine]

@[simp] theorem engineReady_script : (engineReady s).script = (takeReports s).script := by
  cases h : s.mail.engineReports with
  | nil => rw [engineReady_none h, takeReports_none h]
  | cons m rest => rw [engineReady_some h, sendIfIdle_script]

@[simp] theorem engineReady_mail : (engineReady s).mail = (takeReports s).mail := by
  cases h : s.mail.engineReports with
  | nil => rw [engineReady_none h, takeReports_none h]
  | cons m rest => rw [engineReady_some h, sendIfIdle_mail]

/-- An engine that is ready has no report waiting. -/
theorem engineReady_engineReports : (engineReady s).mail.engineReports = [] := by simp

/-- The mark of the event under way stays. -/
theorem engineReady_withCause (c : Bool) : engineReady (s.withCause c) = (engineReady s).withCause c := by
  cases h : s.mail.engineReports with
  | nil => rw [engineReady_none (s := s) h, engineReady_none (s := s.withCause c) h]
  | cons m rest =>
    rw [engineReady_some (s := s) h, engineReady_some (s := s.withCause c) h, takeReports_withCause,
      sendIfIdle_withCause]

/-- No count has ended and no expiry is due: nothing of the last frame start is left. -/
theorem finishCueWork_quiet (h : s.cues.quiet = true) : finishCueWork s = s := by
  simp only [CueMonitor.quiet, Bool.and_eq_true, Bool.not_eq_true', List.isEmpty_iff] at h
  obtain ⟨⟨h1, h2⟩, h3⟩ := h
  have h4 : ∀ (l : List TimerNo), l.foldl expireIfDue s = s := by
    intro l
    induction l with
    | nil => rfl
    | cons n l ih => simp only [List.foldl_cons, expireIfDue, h3]; simpa using ih
  simp [finishCueWork, endFlash, endCueFlag, h1, h2, h4]

/-- No report and no jump waits: nothing to rebuild for. -/
theorem drainCueMail_none (h1 : s.mail.cueReports = []) (h2 : s.mail.cueJumps = []) : drainCueMail s = s := by
  simp [drainCueMail, h1, h2]

theorem cueReady_quiet (h : s.cues.quiet = true) (h1 : s.mail.cueReports = []) (h2 : s.mail.cueJumps = []) :
    cueReady s = s := by
  rw [cueReady, finishCueWork_quiet h, drainCueMail_none h1 h2]

/-- The last poll is finished: the port is ready. -/
theorem portReady_quiet {p : PortNo} (h : s.ports[p].quiet = true) : portReady p s = s := by
  simp only [Port.quiet, Bool.and_eq_true, Bool.not_eq_true'] at h
  have h1 : sendIdle p s = s := by simp only [sendIdle, h.1]; rfl
  simp only [portReady, h1, silenceFault, h.2]; rfl

/-! ### What the Cue Monitor leaves of the mail -/

/-- Two states with the same reports on their way to the Script Table and the same publishes on theirs to the heads. -/
def SameOut (s t : State) : Prop := t.mail.toScript = s.mail.toScript ∧ t.mail.publish = s.mail.publish

theorem SameOut.trans {s t u : State} (h : SameOut s t) (k : SameOut t u) : SameOut s u :=
  ⟨k.1.trans h.1, k.2.trans h.2⟩

theorem SameOut.foldl {α : Type} {f : State → α → State} (h : ∀ u x, SameOut u (f u x)) :
    ∀ (l : List α) (s : State), SameOut s (l.foldl f s)
  | [], _ => ⟨rfl, rfl⟩
  | x :: l, s => (h s x).trans (SameOut.foldl h l (f s x))

theorem sameOut_lampAction (f : Nat) : SameOut s (lampAction f s) := by
  unfold lampAction; dsimp only; split <;> exact ⟨rfl, rfl⟩

theorem sameOut_markerAction (k : MarkerKind) (n : Nat) : SameOut s (markerAction k n s) := by
  cases k
  · exact ⟨rfl, rfl⟩
  · exact ⟨rfl, rfl⟩
  · unfold markerAction timerOf; dsimp only; split <;> exact ⟨rfl, rfl⟩
  · unfold markerAction timerOf; dsimp only; split <;> exact ⟨rfl, rfl⟩
  · exact sameOut_lampAction n
  · unfold markerAction headFlagAction; dsimp only; split <;> exact ⟨rfl, rfl⟩

theorem sameOut_expireTimer (n : TimerNo) : SameOut s (expireTimer n s) := by
  unfold expireTimer expiryAction
  dsimp only
  split
  · exact ⟨rfl, rfl⟩
  · exact ⟨rfl, rfl⟩
  · exact SameOut.trans (t := raise .timerExpired _) ⟨rfl, rfl⟩ (sameOut_lampAction _)

theorem sameOut_cueReady : SameOut s (cueReady s) := by
  have hf {u : State} : SameOut u (endFlash u) := by unfold endFlash; split <;> exact ⟨rfl, rfl⟩
  have hc {u : State} : SameOut u (endCueFlag u) := by unfold endCueFlag; split <;> exact ⟨rfl, rfl⟩
  have hd {u : State} : SameOut u (drainCueMail u) := by unfold drainCueMail; split <;> exact ⟨rfl, rfl⟩
  refine ((hf.trans hc).trans (SameOut.foldl (fun u n => ?_) _ _)).trans hd
  unfold expireIfDue
  split
  · exact (sameOut_expireTimer n).trans ⟨by simp, by simp⟩
  · exact ⟨rfl, rfl⟩

theorem sameOut_passLines (mode : CheckMode) : ∀ (bs : List Nat) (s : State), SameOut s (passLines mode bs s).1
  | [], _ => ⟨rfl, rfl⟩
  | b :: bs, s => by
    have hf (e : CueEntry) : SameOut (dropEntry b s) (fire e (dropEntry b s)) := sameOut_markerAction _ _
    have hd : SameOut s (dropEntry b s) := ⟨rfl, rfl⟩
    unfold passLines
    split
    · exact sameOut_passLines mode bs s
    · dsimp only
      split
      · exact hd.trans (sameOut_passLines mode bs _)
      · split
        · exact hd.trans (hf _)
        · exact (hd.trans (hf _)).trans (sameOut_passLines mode bs _)

/-- A passage check sends the Script Table and the heads no report and no publish. -/
theorem sameOut_passageCheck (a b : Pos) (fwd : Bool) (mode : CheckMode) :
    SameOut s (passageCheck a b fwd mode s).1 := by
  unfold passageCheck
  dsimp only
  split
  · exact sameOut_cueReady
  · split
    · exact sameOut_cueReady.trans (sameOut_passLines _ _ _)
    · exact SameOut.trans (t := cueReady s) sameOut_cueReady ⟨rfl, rfl⟩

/-! ### The clearing that a Query Port can leave (R116; log 42) -/

/-- A clearing is left exactly where a port holds flags still to be cleared. -/
theorem acknowledging_iff : s.acknowledging = true ↔ ∃ p : PortNo, s.ports[p].ackDue ≠ none := by
  simp only [State.acknowledging, Vector.any_eq_true, Option.isSome_iff_ne_none]
  exact ⟨fun ⟨i, hi, h⟩ => ⟨⟨i, hi⟩, h⟩, fun ⟨p, h⟩ => ⟨p.val, p.isLt, h⟩⟩

/-- While a request can be taken, none is left. -/
theorem acknowledging_of_canTake (h : s.canTake = true) : s.acknowledging = false := by
  unfold State.canTake at h
  split at h
  · cases h
  · simp only [State.quiet, Bool.and_eq_true, Bool.not_eq_true'] at h
    exact h.1.1.1.2

/-- With none left, QUERY_PORT takes the head request. -/
theorem execQueryPort_request (h : s.acknowledging = false) :
    execQueryPort s = ran (runRequest 0x4D queryPort s) := by
  simp [execQueryPort, h]

/-- The clearing changes each port by its own flags still to be cleared, and nothing else. -/
@[simp] theorem finishAcks_port (p : PortNo) : (finishAcks s).ports[p] = s.ports[p].finishAck := by
  simp [finishAcks]

/-! ### One port or head changed -/

/-- The port a change was made to, and the others. -/
@[simp] theorem withPort_self (s : State) (p : PortNo) (q : Port) : (s.withPort p q).ports[p] = q := by
  simp [State.withPort]

theorem withPort_other (s : State) {p r : PortNo} (q : Port) (h : r ≠ p) : (s.withPort p q).ports[r] = s.ports[r] := by
  have : p.val ≠ r.val := fun e => h (Fin.ext e.symm)
  simp [State.withPort, this]

@[simp] theorem withPort_twice (s : State) (p : PortNo) (q r : Port) :
    (s.withPort p q).withPort p r = s.withPort p r := by
  simp [State.withPort]

/-- The head a change was made to, and the others. -/
@[simp] theorem withHead_self (s : State) (h : HeadNo) (q : Head) : (s.withHead h q).heads[h] = q := by
  simp [State.withHead]

theorem withHead_other (s : State) {h r : HeadNo} (q : Head) (n : r ≠ h) : (s.withHead h q).heads[r] = s.heads[r] := by
  have : h.val ≠ r.val := fun e => n (Fin.ext e.symm)
  simp [State.withHead, this]

@[simp] theorem withHead_twice (s : State) (h : HeadNo) (q r : Head) :
    (s.withHead h q).withHead h r = s.withHead h r := by
  simp [State.withHead]

end Sys2Proof.Machine
end

