-- ==== Sys2Proof/Laws/Script.lean ====
section
/-! SUPPORT. The running order and the reports of a change, each said once. -/

namespace Sys2Proof.Machine

/-! ### Entries (R29, R31) -/

/-- In an order that names each slot once, looking a slot up finds its entry. -/
theorem find_entry {es : List Entry} {e : Entry} (h : (es.map (·.slot)).Nodup) (he : e ∈ es) :
    es.find? (fun x => x.slot = e.slot) = some e := by
  induction es with
  | nil => cases he
  | cons a es ih =>
    simp only [List.map_cons, List.nodup_cons] at h
    rcases List.mem_cons.1 he with rfl | he
    · simp
    · have : a.slot ≠ e.slot := fun hh => h.1 (hh ▸ List.mem_map_of_mem he)
      simp [this, ih h.2 he]

/-- The standing of a slot is that of its entry. -/
theorem standingOf_entry {t : ScriptTable} {e : Entry} (h : (t.order.map (·.slot)).Nodup) (he : e ∈ t.order) :
    t.standingOf e.slot = some (t.standing e) := by
  simp only [ScriptTable.standingOf, find_entry h he, Option.map_some]

/-- A slot without an entry has no standing. -/
theorem standingOf_none {t : ScriptTable} {k : Slot} (h : ∀ e ∈ t.order, e.slot ≠ k) : t.standingOf k = none := by
  simpa [ScriptTable.standingOf] using h

/-- The index of an entry is that at which it stands. -/
theorem entryIndex_entry {t : ScriptTable} {e : Entry} {i : Nat} (h : (t.order.map (·.slot)).Nodup)
    (he : t.order[i]? = some e) : t.entryIndex e.slot = some i := by
  obtain ⟨hi, rfl⟩ := List.getElem?_eq_some_iff.1 he
  rw [ScriptTable.entryIndex, List.findIdx?_eq_some_iff_getElem]
  refine ⟨hi, by simp, fun j hj => ?_⟩
  simp only [decide_eq_true_eq]
  intro hh
  have := (List.nodup_iff_injective_get.1 h) (a₁ := ⟨j, by simpa using hj.trans hi⟩) (a₂ := ⟨i, by simpa using hi⟩)
    (by simpa using hh)
  simp at this; omega

/-- An unfloated entry is told by its slot. -/
theorem entry_mem_iff {es : List Entry} {e : Entry} {b : Bool} (h : (es.map (·.slot)).Nodup) (he : e ∈ es) :
    ({ slot := e.slot, floated := b } : Entry) ∈ es ↔ e.floated = b := by
  constructor
  · intro hm
    have h1 := find_entry h hm
    rw [show ({ slot := e.slot, floated := b } : Entry).slot = e.slot from rfl, find_entry h he] at h1
    injection h1 with h1; rw [h1]
  · rintro rfl; exact he

/-! ### The reports of a change (R39) -/

/-- The reports of a change from the standings before and after it. -/
theorem reportsOf_standings {lead : List ScriptReport} {k : Slot} {before after : ScriptTable}
    {a b : Option Standing} (ha : before.standingOf k = a) (hb : after.standingOf k = b) :
    reportsOf lead k before after =
      lead ++ (if a = some .eligible ∧ b ≠ some .eligible then [.ineligible k ((before.entryIndex k).getD 0)] else [])
        ++ (if a ≠ some .eligible ∧ b = some .eligible then [.eligible k] else [])
        ++ (if before.order ≠ after.order ∨ a ≠ b then [.orderChanged] else []) := by
  simp [reportsOf, ScriptTable.eligible, ha, hb]

/-- No standing and no entry changes: the lead alone. -/
theorem reportsOf_same {lead : List ScriptReport} {k : Slot} {before after : ScriptTable}
    (ho : before.order = after.order) (hs : before.standingOf k = after.standingOf k) :
    reportsOf lead k before after = lead := by
  rw [reportsOf_standings rfl rfl]; simp [ho, hs]

@[simp] theorem withStory_order (t : ScriptTable) (k : Slot) (y : Story) : (t.withStory k y).order = t.order := rfl
@[simp] theorem withStory_load (t : ScriptTable) (k : Slot) (y : Story) : (t.withStory k y).load = t.load := rfl
@[simp] theorem withStory_self (t : ScriptTable) (k : Slot) (y : Story) : (t.withStory k y).stories[k] = y := by
  simp [ScriptTable.withStory]
theorem withStory_other (t : ScriptTable) {k j : Slot} (y : Story) (h : j ≠ k) :
    (t.withStory k y).stories[j] = t.stories[j] := by
  have : k.val ≠ j.val := fun e => h (Fin.ext e.symm)
  simp [ScriptTable.withStory, this]

end Sys2Proof.Machine
end

