-- ==== Sys2Proof/WellFormed.lean ====
section
/-! DEFINITION. Which commands are well formed: the characters a command brings are at least one and fit one
longest frame of the line they arrive on. Every other operand is bounded by its type. -/

namespace Sys2Proof

/-- Longest host link or head link frame: start, length, 200 bytes of kind and body, check (11.2). -/
def linkFrameLimit : Nat := 203

/-- Longest control port frame: start, kind, the 11 bytes of a STRIP report, check (R189). -/
def portFrameLimit : Nat := 14

/-- The characters of one arrival: some, and no more than one frame of at most `limit` characters. -/
def charsWf (limit : Nat) (chars : List LineChar) : Bool :=
  !chars.isEmpty && chars.length ≤ limit

/-- The check of a command. -/
def Instr.wf : Instr → Bool
  | .powerOnReset _ _ => true
  | .checkedFrame chars => charsWf linkFrameLimit chars
  | .receiveFault chars => charsWf linkFrameLimit chars
  | .frameTimeout => true
  | .unknownRequest => true
  | .transmitNext => true
  | .resetTakesEffect => true
  | .openStory => true
  | .appendLine => true
  | .closeStoryCommit => true
  | .closeStoryAbandon => true
  | .freeStory => true
  | .setStory => true
  | .queryStory => true
  | .queryStore => true
  | .placeEntry => true
  | .moveEntry => true
  | .removeEntry => true
  | .floatEntry => true
  | .queryOrder => true
  | .insertLine => true
  | .replaceLine => true
  | .deleteLines => true
  | .readLine => true
  | .queryFault => true
  | .clearFault => true
  | .designationReport => true
  | .airFrameReport => true
  | .run => true
  | .stop => true
  | .halt => true
  | .step => true
  | .goTo => true
  | .setSpeed => true
  | .setMotion => true
  | .setPreview => true
  | .queryMotion => true
  | .frameAdvance => true
  | .insertReport => true
  | .deleteReport => true
  | .storyIneligibleReport => true
  | .storyEligibleReport => true
  | .orderChangedReport => true
  | .setTarget => true
  | .startStopKey => true
  | .jog => true
  | .stopExpiryAction => true
  | .setDriveMode => true
  | .setPortClass => true
  | .pinDrive => true
  | .claimDrive => true
  | .releaseDrive => true
  | .queryDrive => true
  | .claim _ => true
  | .idle _ => true
  | .portReady _ => true
  | .portGone _ => true
  | .passHolderInput _ => true
  | .standingReport _ => true
  | .enablePort => true
  | .disablePort => true
  | .resetPort => true
  | .setPort => true
  | .setLamp => true
  | .queryPort => true
  | .presenceFound _ => true
  | .presenceLost _ => true
  | .holdOffEnd _ => true
  | .overcurrent _ => true
  | .poll _ => true
  | .silenceFault _ => true
  | .hello _ chars => charsWf portFrameLimit chars
  | .dataReport _ chars => charsWf portFrameLimit chars
  | .releaseTimeReached _ => true
  | .lampFlash _ => true
  | .lampFlashEnd _ => true
  | .cueFrameStart => true
  | .flashCountEnd => true
  | .cueFlagCountEnd => true
  | .timerExpiry _ => true
  | .positionJumped => true
  | .lineRewritten => true
  | .scriptChangeReport => true
  | .queryCues => true
  | .skipCue => true
  | .setTimer => true
  | .startTimer => true
  | .stopTimer => true
  | .queryTimers => true
  | .freeRunFrameStart => true
  | .referencePulse => true
  | .flywheelFrame => true
  | .setFrame => true
  | .setReference => true
  | .queryFrame => true
  | .viewBuild _ => true
  | .headReady _ chars => charsWf linkFrameLimit chars
  | .fetch _ chars => charsWf linkFrameLimit chars
  | .headFrameDiscard _ chars => charsWf linkFrameLimit chars
  | .headSilenceTimeout _ => true
  | .headTransmit _ => true
  | .cueFlag _ => true
  | .cueFlagEnd _ => true
  | .setHead => true
  | .queryHead => true
  | .identify => true
  | .setNotices => true
  | .reset => true

end Sys2Proof
end

