-- ==== Sys2Proof/Tests/Slice0.lean ====
section
/-! SUPPORT. Tests on fixed values: the well-formedness checks, the spec's own worked values, and for each statement with
hypotheses a state and operands that meet them. -/

namespace Sys2Proof.Machine.Tests

set_option Elab.async false

/-! ### Well-formedness: each check refuses an ill-formed command -/

def oneChar : List LineChar := [{ byte := 0, stop := true }]
def longChars (n : Nat) : List LineChar := List.replicate n { byte := 0, stop := true }

theorem test_wf_checkedFrame : (Instr.checkedFrame []).wf = false ∧ (Instr.checkedFrame (longChars 204)).wf = false ∧
    (Instr.checkedFrame (longChars 203)).wf = true := by decide +kernel
theorem test_wf_receiveFault : (Instr.receiveFault []).wf = false ∧ (Instr.receiveFault (longChars 204)).wf = false ∧
    (Instr.receiveFault oneChar).wf = true := by decide +kernel
theorem test_wf_hello : (Instr.hello 0 []).wf = false ∧ (Instr.hello 0 (longChars 15)).wf = false ∧
    (Instr.hello 0 (longChars 14)).wf = true := by decide +kernel
theorem test_wf_dataReport : (Instr.dataReport 3 []).wf = false ∧ (Instr.dataReport 3 (longChars 15)).wf = false ∧
    (Instr.dataReport 3 (longChars 14)).wf = true := by decide +kernel
theorem test_wf_headReady : (Instr.headReady 0 []).wf = false ∧ (Instr.headReady 0 (longChars 204)).wf = false ∧
    (Instr.headReady 0 oneChar).wf = true := by decide +kernel
theorem test_wf_fetch : (Instr.fetch 0 []).wf = false ∧ (Instr.fetch 0 (longChars 204)).wf = false ∧
    (Instr.fetch 0 oneChar).wf = true := by decide +kernel
theorem test_wf_headFrameDiscard : (Instr.headFrameDiscard 0 (longChars 204)).wf = false ∧
    (Instr.headFrameDiscard 0 oneChar).wf = true := by decide +kernel

/-! ### Values the spec works out -/

/-- Identify as it is sent: start byte, length, kind and the CRC-8 (R179). -/
theorem test_crc : linkFrame 0x70 [] = [0xA5, 0x01, 0x70, 0x42] := by decide +kernel

/-- A Poll with the lamp off: its check makes the sum 0 (R189). -/
theorem test_portCheck : portFrame 0x01 [0] = [0xC3, 0x01, 0x00, 0xFF] := by decide +kernel

/-- The table gives no command bits, so no word spells one. -/
theorem test_noWord : decodeTableWord 8 0x10 = none := rfl

/-! ### A state to ask on: a script on air, short enough to write out -/

def line (m : Option Marker) : LineRecord := { text := [0x41], style := .spoken, marker := m }

def story (access : Access) (limit : Nat) (lines : List Nat) : Story :=
  { state := .ready, access := access, limit := limit, lines := lines, slug := [0x53], aired := false
    changed := false, airFrames := 0 }

/-- Slots 0 and 1 are eligible, 2 is the open load and a gap, 3 is spare and full, 4 is FIXED, 5 is WATCHED and aired and
floated, 6 has no lines and 7 is CLOSED and spare. -/
def stories : Vector Story 64 :=
  ((((((((Vector.replicate 64 Story.free).set 0 (story .opened 9 [0, 1, 2])).set 1 (story .opened 9 [3, 4])).set 2
    { story .opened 2 [5] with state := .loading }).set 3 (story .opened 1 [6])).set 4 (story .fixed 1 [7])).set 5
    { story .watched 1023 [8] with aired := true }).set 6 (story .opened 1 [])).set 7 (story .closed 9 [9])

def script : ScriptTable :=
  { ScriptTable.reset with
    stories := stories, load := some 2
    order := [⟨0, false⟩, ⟨1, false⟩, ⟨2, false⟩, ⟨4, false⟩, ⟨5, true⟩, ⟨6, false⟩] }

/-- Block 1 carries a NOTE and block 3 a PAUSE. -/
def store : TextStore :=
  { blocks := [(0, ⟨0, some (line none)⟩), (1, ⟨0, some (line (some ⟨.note, 0⟩))⟩), (2, ⟨0, some (line none)⟩),
      (3, ⟨0, some (line (some ⟨.pause, 255⟩))⟩), (4, ⟨0, some (line none)⟩), (5, ⟨0, some (line none)⟩),
      (6, ⟨0, some (line none)⟩), (7, ⟨0, some (line none)⟩), (8, ⟨255, some (line none)⟩), (9, ⟨0, some (line none)⟩)]
    pool := [10, 11], threshold := 0, armed := true }

def engine : Engine := { Engine.reset with live := some ⟨0, 0⟩, liveSlot := some 0 }

def onAir : State := { State.reset with script := script, store := store, engine := engine }

/-- A request at the head of the queue. -/
def asking (kind : Byte) (body : List Byte) (s : State) : State :=
  s.withLink { s.link with requests := [{ kind := kind, body := body, busy := [] }] }

def ready (kind : Byte) (s : State) (body : List Byte) : Bool :=
  (asking kind body s).canTake && decide (requestLength kind.toNat body = some body.length)

theorem serves {kind : Byte} {s : State} {body : List Byte} (h : ready kind s body = true) :
    Serving (asking kind body s) kind body := by
  simp only [ready, Bool.and_eq_true, decide_eq_true_eq] at h
  exact ⟨⟨[], [], rfl⟩, h.2, h.1⟩

theorem servesAll {kind : Byte} {s : State} {bodies : List (List Byte)} (h : bodies.all (ready kind s) = true) :
    ∀ b ∈ bodies, Serving (asking kind b s) kind b := fun b hb => serves (List.all_eq_true.1 h b hb)

theorem test_onAir_script : ScriptInv onAir.script where
  freeValues := by decide +kernel
  loading := by decide +kernel
  distinct := by decide +kernel
  placedStories := by decide +kernel
  limits := by decide +kernel
  slugs := by decide +kernel
  airFrames := by decide +kernel

theorem test_onAir_blocks : BlocksWf onAir.store.blocks := by decide +kernel

/-! ### Hypotheses met: the step, resets and the host link -/

theorem test_hyp_EmptyQueue : State.reset.pending = [] ∧ nextEvent State.reset = none ∧
    nextEvent (asking 0x70 [] State.reset) = some .identify ∧
    nextEvent { State.reset with now := 20000 } = some .freeRunFrameStart := by decide +kernel

/-- No request at the head, one of another kind, a Close Story of each mode, a request not known; a channel with nothing
in it and one with a message of another kind at its head. -/
theorem test_hyp_NotReady : State.reset.canTake = false ∧ State.reset.mail.engineReports = [] ∧
    State.reset.mail.toArbiter[(3 : PortNo)] = [] ∧
    ((asking 0x70 [] State.reset).canTake = true ∧
      (asking 0x70 [] State.reset).link.requests.map (·.kind) = [0x70] ∧ (0x70 : Byte) ≠ 0x30) ∧
    (asking 0x12 [1] State.reset).link.requests.map (fun r => (r.kind, r.body)) = [(0x12, [1])] ∧
    (asking 0x12 [0] State.reset).link.requests.map (fun r => (r.kind, r.body)) = [(0x12, [0])] ∧
    (∀ p : PortNo, State.reset.ports[p].ackDue = none) ∧
    (sendArbiter 3 .claim State.reset).mail.toArbiter[(3 : PortNo)].map (·.body) = [.claim] ∧
    (sendFlash true State.reset).mail.flash[(3 : PortNo)].map (·.body) = [true] ∧
    (sendCueFlag true State.reset).mail.cueFlag[(3 : HeadNo)].map (·.body) = [true] := by decide +kernel

def done : Reply := { kind := 0xF2, body := [0], isReset := true }

/-- A part whose accepted Reset has its Done on the line. -/
def resetting (x : Scope) : State :=
  onAir.withLink { onAir.link with resetScope := some x, sending := some done }

theorem test_hyp_ResetRequest :
    (∀ b ∈ [[0x80], [0x0F], [0x8F], [0x00], [0x10], [0x40]], Serving (asking 0x72 b onAir) 0x72 b) ∧
    Scope.ofByte 0x0F = some ⟨true, true, true, true, false⟩ ∧ Scope.ofByte 0x00 = none ∧ Scope.ofByte 0x40 = none ∧
    (resetting ⟨true, false, false, false, false⟩).link.sendsReset = true ∧ onAir.link.resetScope = none :=
  ⟨servesAll (by decide +kernel), by decide +kernel⟩

theorem test_hyp_ResetTakesEffect : ∀ x ∈ [(⟨false, false, false, false, true⟩ : Scope), ⟨true, true, true, true, true⟩,
      ⟨true, false, false, false, false⟩, ⟨false, true, false, false, false⟩, ⟨false, false, true, true, false⟩],
    (resetting x).link.resetScope = some x ∧ (resetting x).link.sendsReset = true ∧ (resetting x).cues.quiet = true ∧
      BlocksWf (resetting x).store.blocks := by decide +kernel

def request (kind : Byte) : Request := { kind := kind, body := [], busy := [] }
def busyReply : Reply := { kind := 0xF0, body := [8], isReset := false }

/-- Four requests wait, with `n` Busy replies attached to the last. -/
def full (n : Nat) : State :=
  onAir.withLink { onAir.link with
    requests := [request 0x70, request 0x70, request 0x70, { request 0x70 with busy := List.replicate n busyReply }] }

theorem test_hyp_HostFrameReceived : onAir.link.rx.state = .hunting ∧ (List.replicate 199 (0 : Byte)).length ≤ 199 ∧
    onAir.link.requests.length < 4 ∧
    (full 2).link.requests = [request 0x70, request 0x70, request 0x70] ++
      [{ request 0x70 with busy := [busyReply, busyReply] }] ∧
    4 ≤ (full 2).link.requests.length ∧ (full 2).link.busyHeld < 3 ∧ 3 ≤ (full 3).link.busyHeld := by decide +kernel

/-- A frame is under way. -/
def receiving (now : Nat) : State :=
  { onAir with now := now, link := { onAir.link with rx := { state := .collecting 200 [], lastAt := 7 } } }

theorem test_hyp_ReceiveFaults : onAir.link.rx.state = .hunting ∧
    (0 : Byte) ≠ crc8 [byte 1, 0x70] ∧ 200 < (201 : Byte).toNat ∧
    (receiving 5007).link.rx.state ≠ .hunting ∧ (receiving 5007).now ≤ (receiving 5007).link.rx.lastAt + 5000 ∧
    (receiving 5008).link.rx.lastAt + 5000 < (receiving 5008).now := by decide +kernel

theorem test_hyp_UnknownAndMalformed :
    (asking 0x17 [] onAir).canTake = true ∧ knownRequest 0x17 = false ∧ knownRequest 0xFF = false ∧
    (asking 0x12 [] onAir).canTake = true ∧ knownRequest 0x12 = true ∧
    requestLength 0x12 [] ≠ some 0 := by decide +kernel

/-- The Malformed clause of the requests whose body is empty. -/
theorem test_hyp_bodyNotEmpty : ∀ kind ∈ [(0x16 : Byte), 0x2C, 0x2D, 0x38, 0x45, 0x55, 0x70],
    (asking kind [0] onAir).canTake = true ∧ ([0] : List Byte) ≠ [] ∧
    ∃ r, (asking kind [0] onAir).link.requests = [r] ∧ r.kind = kind ∧ r.body = [0] := by
  intro kind hk
  refine ⟨?_, by decide, _, rfl, rfl, rfl⟩
  revert kind
  decide +kernel

/-- The requests with an empty body, served. -/
theorem test_hyp_bodyEmpty : ∀ kind ∈ [(0x16 : Byte), 0x24, 0x2C, 0x2D, 0x30, 0x31, 0x32, 0x38, 0x43, 0x44, 0x45, 0x50,
    0x55, 0x5A, 0x70], Serving (asking kind [] onAir) kind [] := by
  have h : ([(0x16 : Byte), 0x24, 0x2C, 0x2D, 0x30, 0x31, 0x32, 0x38, 0x43, 0x44, 0x45, 0x50, 0x55, 0x5A,
    0x70].all (fun k => ready k onAir [])) = true := by decide +kernel
  exact fun k hk => serves (List.all_eq_true.1 h k hk)

theorem test_hyp_Transmission : onAir.link.sendsReset = false ∧ onAir.link.replies = [] ∧ onAir.link.notices = [] ∧
    (raise .timerExpired onAir).link.notices = [.timerExpired] ∧ (raise .timerExpired onAir).link.sendsReset = false ∧
    (onAir.withLink { onAir.link with replies := [busyReply] }).link.sendsReset = false := by decide +kernel

/-- A transmitter that sends, and one that waits with a notice, with a reply and with nothing; a Halt that it waits for. -/
theorem test_hyp_SentAtOnce : (onAir.withLink { onAir.link with sending := some busyReply }).link.sending ≠ none ∧
    (raise .timerExpired onAir).link.sending = none ∧ (raise .timerExpired onAir).link.notices = [.timerExpired] ∧
    (onAir.withLink { onAir.link with replies := [busyReply] }).link.notices = [] ∧
    Serving (asking 0x32 [] (onAir.withEngine { engine with motion := .running })) 0x32 [] ∧
    onAir.link.sending = none ∧ (Notice.scrollHalted).enabledBy onAir.link.mask = true :=
  ⟨by decide +kernel, rfl, by decide +kernel, rfl, serves (by decide +kernel), rfl, by decide +kernel⟩

theorem test_hyp_Notices :
    Notice.headChanged.enabledBy onAir.link.mask = true ∧ Notice.headChanged ∉ onAir.link.notices ∧
    Notice.scrollHalted.enabledBy 0x1FFE = false ∧
    (∀ b ∈ [[0, 0, 0x20, 1], [0x20, 0, 0, 0], [0x1F, 0xFF, 0x20, 0], [0, 0, 0, 3]],
      Serving (asking 0x71 b onAir) 0x71 b) ∧
    u16 [0, 0, 0x20, 1] 2 = 8193 ∧ u16 [0x1F, 0xFF, 0x20, 0] 2 = 8192 ∧ u16 [0x1F, 0xFF, 0x20, 0] 0 = 0x1FFF :=
  ⟨by decide +kernel, by decide +kernel, by decide +kernel, servesAll (by decide +kernel), by decide +kernel⟩

/-! ### Hypotheses met: invariants, frames and the store -/

theorem test_hyp_CommandsTouch : exec .identify State.reset = .next State.reset ∧ State.reset.link.sending = none ∧
    State.reset.link.replies = [] ∧ State.reset.link.notices = [] := ⟨rfl, rfl, rfl, rfl⟩

theorem reset_pool : State.reset.store.pool = List.range Config.blocks := by
  simp only [State.reset, State.powerOn, TextStore.reset]

theorem test_reset_store : StoreInv State.reset where
  canonical := reset_wf
  numbered := fun _ h => by cases h
  placed := by
    have h : State.reset.script.allLines = [] := by decide +kernel
    rw [h, List.append_nil, reset_pool]
  held := fun n h => by
    have h1 : (State.reset.store.read n).record = none := rfl
    rw [reset_pool]
    simp [h1, h]
  threshold := by decide +kernel

theorem test_reset_blocks : ScriptInv State.reset.script ∧ EngineInv State.reset.engine ∧
    ArbiterInv State.reset.arbiter ∧ (∀ p : PortNo, PortInv State.reset.ports[p]) ∧ CueInv State.reset.cues ∧
    ClockInv State.reset.clock ∧ (∀ h : HeadNo, HeadInv State.reset.heads[h]) ∧ LinkInv State.reset.link := by
  refine ⟨⟨?_, ?_, ?_, ?_, ?_, ?_, ?_⟩, ⟨?_, ?_, ?_, ?_, ?_, ?_, ?_, ?_, ?_⟩, ⟨?_, ?_, ?_, ?_, ?_, ?_⟩,
    fun p => ?_, ⟨?_, ?_, ?_, ?_, ?_⟩, ⟨?_, ?_, ?_, ?_, ?_⟩, fun h => ?_, ⟨?_, ?_, ?_, ?_, ?_, ?_⟩⟩
  all_goals first
    | decide +kernel
    | skip
  · revert p
    intro p
    fin_cases p <;> constructor <;> decide +kernel
  · revert h
    intro h
    fin_cases h <;> constructor <;> decide +kernel

/-- The live position of the part after reset is in place, and so is that of a part on air. -/
theorem test_hyp_LivePosition : LiveInv State.reset ∧ LiveInv onAir := by
  refine ⟨⟨by decide +kernel, by decide +kernel, ⟨fun _ => ?_, fun _ h => by cases h⟩⟩,
    ⟨by decide +kernel, by decide +kernel, ⟨fun h => (by cases h), fun _ h => ⟨0, ?_⟩⟩⟩⟩
  · decide +kernel
  · cases h
    decide +kernel

/-- What a part of the next state holds. -/
def after {α : Type} (f : State → α) : Out → Option α
  | .next t => some (f t)
  | .fault _ => none
  | .refused _ => none

theorem next_of_after {α : Type} {f : State → α} {o : Out} {x : α} (h : after f o = some x) :
    ∃ t, o = .next t ∧ f t = x := by
  cases o with
  | next t => exact ⟨t, rfl, Option.some.inj h⟩
  | fault e => cases h
  | refused e => cases h

/-- A step that the invariants have to survive: the first frame start after reset. -/
theorem test_hyp_Kept : ∃ t, step { State.reset with now := 20000 } = .next t ∧ t.clock.counter = 1 :=
  next_of_after (f := (·.clock.counter)) (by decide +kernel)

theorem test_hyp_StoreRequests : BlocksWf onAir.store.blocks ∧ onAir.store.pool = 10 :: [11] ∧
    ({ onAir with store := { store with pool := [] } } : State).store.pool = [] ∧ [0, 1, 2].Nodup := by decide +kernel

theorem test_hyp_OtherBlocksKept : writtenBlocks .insertLine (asking 0x28 [0, 0, 0, 0, 0, 0, 0, 0] onAir) = [10] ∧
    writtenBlocks .deleteLines (asking 0x2A [0, 0, 1, 2] onAir) = [1, 2] ∧
    writtenBlocks .replaceLine (asking 0x29 [1, 0, 1, 0, 0, 0, 0, 0] onAir) = [4] ∧
    writtenBlocks .freeStory (asking 0x13 [3] onAir) = [6] ∧
    writtenBlocks .closeStoryAbandon (asking 0x12 [1] onAir) = [5] := by decide +kernel

/-! ### Hypotheses met: stories, the load and the running order -/

/-- No load is open: slot 2 is FREE and its entry gone. -/
def unloaded : State :=
  { onAir with script := { script with
      load := none, stories := stories.set 2 Story.free, order := script.order.eraseIdx 2 } }

theorem test_unloaded_script : ScriptInv unloaded.script where
  freeValues := by decide +kernel
  loading := by decide +kernel
  distinct := by decide +kernel
  placedStories := by decide +kernel
  limits := by decide +kernel
  slugs := by decide +kernel
  airFrames := by decide +kernel

theorem test_hyp_OpenStory :
    (∀ b ∈ [[64, 0, 1, 0, 0], [9, 0, 0, 0, 0], [9, 4, 0, 0, 0], [9, 0, 1, 4, 0], 9 :: 0 :: 1 :: 0 :: 17 :: List.replicate 17 0x20,
        [9, 0, 1, 0, 1, 0x1F]], Serving (asking 0x10 b onAir) 0x10 b) ∧
    (∀ b ∈ [[63, 0, 1, 0, 0], [2, 3, 0xFF, 3, 1, 0x20]], Serving (asking 0x10 b unloaded) 0x10 b ∧
      (slugOf b).all isTextCode = true ∧ 1 ≤ u16 b 1 ∧ u16 b 1 ≤ 1023) ∧
    unloaded.script.stories[(63 : Slot)].state = .free ∧ unloaded.script.stories[(0 : Slot)].state ≠ .free ∧
    unloaded.script.load = none ∧ onAir.script.load ≠ none := by
  refine ⟨servesAll (by decide +kernel), fun b hb => ⟨servesAll (bodies := [[63, 0, 1, 0, 0], [2, 3, 0xFF, 3, 1, 0x20]])
    (by decide +kernel) b hb, ?_⟩, by decide +kernel⟩
  revert b
  decide +kernel

theorem test_hyp_AppendLine :
    (∀ b ∈ [[0, 0, 0, 0, 0], [0, 3, 0, 0, 0], [1, 0x7F, 0, 0, 0, 0], [0, 0, 1, 4, 0]],
      Serving (asking 0x11 b onAir) 0x11 b) ∧
    checkRecord [0, 3, 0, 0, 0] = none ∧ checkRecord [1, 0x7F, 0, 0, 0, 0] = none ∧
    checkRecord [0, 0, 1, 4, 0] = none ∧ (checkRecord [0, 0, 0, 0, 0]).isSome = true ∧
    (checkRecord (44 :: List.replicate 44 0x20 ++ [2, 1, 2, 5])).isSome = true ∧
    checkRecord (45 :: List.replicate 45 0x20 ++ [0, 0, 0, 0]) = none ∧ unloaded.script.load = none ∧
    onAir.script.load = some 2 ∧ onAir.script.stories[(2 : Slot)].lines.length ≠ onAir.script.stories[(2 : Slot)].limit ∧
    onAir.store.pool = 10 :: [11] := ⟨servesAll (by decide +kernel), by decide +kernel⟩

/-- The two refusals of an append: the load is at its limit, and the pool is empty. -/
theorem test_hyp_AppendLine_full :
    let atLimit := { onAir with script := script.withStory 2 { script.stories[(2 : Slot)] with limit := 1 } }
    let noBlock := { onAir with store := { store with pool := [] } }
    Serving (asking 0x11 [0, 0, 0, 0, 0] atLimit) 0x11 [0, 0, 0, 0, 0] ∧
    atLimit.script.stories[(2 : Slot)].lines.length = atLimit.script.stories[(2 : Slot)].limit ∧
    Serving (asking 0x11 [0, 0, 0, 0, 0] noBlock) 0x11 [0, 0, 0, 0, 0] ∧ noBlock.store.pool = [] :=
  ⟨serves (by decide +kernel), by decide +kernel, serves (by decide +kernel), rfl⟩

/-- The limits of a record, each met and each passed by one. -/
theorem test_checkRecord :
    (∀ b ∈ [[1, 0x20, 0, 0, 0, 0], [1, 0x7E, 2, 0, 9, 9], [1, 0xA0, 0, 1, 0, 255], [0, 1, 1, 1, 0], [0, 0, 1, 2, 5],
      [0, 0, 1, 3, 0], [0, 0, 1, 4, 1], [0, 0, 1, 5, 255]], (checkRecord b).isSome = true) ∧
    (∀ b ∈ [[1, 0x1F, 0, 0, 0, 0], [1, 0x7F, 0, 0, 0, 0], [1, 0x9F, 0, 0, 0, 0], [0, 3, 0, 0, 0], [0, 0, 2, 0, 0],
      [0, 0, 1, 2, 6], [0, 0, 1, 3, 6], [0, 0, 1, 4, 0], [0, 0, 1, 5, 0], [0, 0, 1, 6, 1]], checkRecord b = none) := by
  decide +kernel

theorem test_hyp_CloseStory :
    (∀ b ∈ [[0], [1], [2]], Serving (asking 0x12 b onAir) 0x12 b) ∧ onAir.script.load = some 2 ∧
    (∀ b ∈ [[0], [1]], Serving (asking 0x12 b unloaded) 0x12 b) ∧ unloaded.script.load = none :=
  ⟨servesAll (by decide +kernel), rfl, servesAll (by decide +kernel), rfl⟩

theorem test_hyp_FreeAndSetStory :
    (∀ b ∈ [[64], [63], [2], [0], [3]], Serving (asking 0x13 b onAir) 0x13 b) ∧
    onAir.script.stories[(63 : Slot)].state = .free ∧ onAir.script.stories[(2 : Slot)].state = .loading ∧
    (∃ e ∈ onAir.script.order, e.slot = 0) ∧ (∀ e ∈ onAir.script.order, e.slot ≠ 3) ∧
    (∀ b ∈ [[64, 0, 0, 9, 0], [0, 0, 0, 2, 0], [0, 4, 0, 9, 0], [63, 0, 0, 9, 0], [2, 0, 0, 1, 0], [0, 0, 0, 3, 0],
      [0, 3, 3, 0xFF, 0], [6, 3, 0, 1, 0]], Serving (asking 0x14 b onAir) 0x14 b) ∧
    onAir.script.stories[(0 : Slot)].lines.length = 3 ∧ onAir.script.stories[(6 : Slot)].lines = [] :=
  ⟨servesAll (by decide +kernel), by decide +kernel, by decide +kernel, by decide +kernel, by decide +kernel,
    servesAll (by decide +kernel), by decide +kernel⟩

/-- A Live Slot check of the slot the live position stands in, not aired and aired, and of another. -/
theorem test_hyp_LiveSlotChecked : onAir.engine.live = some ⟨0, 0⟩ ∧ onAir.script.locate 0 = some (0, 0) ∧
    onAir.script.stories[(0 : Slot)].state = .ready ∧ onAir.script.stories[(0 : Slot)].aired = false ∧
    (script.withStory 0 { script.stories[(0 : Slot)] with aired := true }).stories[(0 : Slot)].aired = true ∧
    (liveSlotCheck 0 onAir).script.lastAired = some 0 ∧ (liveSlotCheck 1 onAir).script.lastAired = none := by decide +kernel

theorem test_hyp_OrderRequests :
    (∀ b ∈ [[64, 0], [3, 7], [63, 0], [0, 0], [3, 6], [3, 0], [7, 0]], Serving (asking 0x20 b onAir) 0x20 b) ∧
    (∀ b ∈ [[6, 0], [0, 6], [0, 5], [2, 2]], Serving (asking 0x21 b onAir) 0x21 b) ∧
    (∀ b ∈ [[6], [5], [0]], Serving (asking 0x22 b onAir) 0x22 b) ∧
    (∀ b ∈ [[6, 0], [0, 2], [0, 0], [0, 1], [4, 0], [4, 1]], Serving (asking 0x23 b onAir) 0x23 b) ∧
    onAir.script.order.length = 6 ∧ onAir.script.order[5]? = some ⟨6, false⟩ ∧
    onAir.script.order[4]? = some ⟨5, true⟩ ∧ onAir.script.stories[(3 : Slot)].state ≠ .free ∧
    onAir.script.standing ⟨0, false⟩ = .eligible ∧ onAir.script.standing ⟨5, false⟩ = .eligible ∧
    (∀ e ∈ onAir.script.order, e.slot ≠ 7) :=
  ⟨servesAll (by decide +kernel), servesAll (by decide +kernel), servesAll (by decide +kernel),
    servesAll (by decide +kernel), by decide +kernel⟩

theorem test_hyp_ScriptQueries :
    (∀ b ∈ [[64], [63], [0], [3]], Serving (asking 0x15 b onAir) 0x15 b) ∧
    (onAir.script.order.map (·.slot)).Nodup ∧ onAir.script.order[0]? = some ⟨0, false⟩ ∧
    (∀ e ∈ onAir.script.order, e.slot ≠ 3) ∧
    (∀ b ∈ [[64, 0, 0], [63, 0, 0], [0, 0, 3], [0, 0, 2], [2, 0, 0]], Serving (asking 0x2B b onAir) 0x2B b) ∧
    onAir.script.stories[(0 : Slot)].lines[2]? = some 2 ∧ (onAir.store.read 2).record = some (line none) :=
  ⟨servesAll (by decide +kernel), by decide +kernel, by decide +kernel, by decide +kernel,
    servesAll (by decide +kernel), by decide +kernel⟩

/-- A report of the Scroll Engine waits. -/
def reported (x : ScriptMsg) : State :=
  onAir.withMail { onAir.mail with toScript := [{ req := false, body := x }] }

theorem test_hyp_OnAirHistory :
    (reported (.designation 0)).mail.toScript = [{ req := false, body := .designation 0 }] ∧
    onAir.script.stories[(0 : Slot)].state = .ready ∧ onAir.script.stories[(0 : Slot)].aired = false ∧
    onAir.script.stories[(5 : Slot)].aired = true ∧ onAir.script.stories[(2 : Slot)].state ≠ .ready ∧
    (reported (.airFrame 2)).mail.toScript = [{ req := false, body := .airFrame 2 }] := by decide +kernel

/-! ### Hypotheses met: editing on air -/

theorem test_hyp_EditRefused :
    (∀ b ∈ [[64, 0, 0, 0, 0, 0, 0, 0], [0, 0, 4, 0, 0, 0, 0, 0], [0, 0, 0, 0, 3, 0, 0, 0], [63, 0, 0, 0, 0, 0, 0, 0],
        [2, 0, 0, 0, 0, 0, 0, 0], [3, 0, 0, 0, 0, 0, 0, 0], [4, 0, 0, 0, 0, 0, 0, 0]],
      Serving (asking 0x28 b onAir) 0x28 b) ∧
    (∀ b ∈ [[0, 0, 3, 0, 0, 0, 0, 0], [4, 0, 0, 0, 0, 0, 0, 0], [7, 0, 0, 0, 0, 0, 0, 0]],
      Serving (asking 0x29 b onAir) 0x29 b) ∧
    (∀ b ∈ [[0, 0, 0, 0], [0, 0, 0, 33], [0, 0, 1, 3], [4, 0, 0, 1], [64, 0, 0, 1]],
      Serving (asking 0x2A b onAir) 0x2A b) ∧
    onAir.script.stories[(3 : Slot)].lines.length = onAir.script.stories[(3 : Slot)].limit ∧
    onAir.script.stories[(4 : Slot)].access = .fixed ∧ onAir.script.stories[(7 : Slot)].access = .closed ∧
    onAir.script.fault = none :=
  ⟨servesAll (by decide +kernel), servesAll (by decide +kernel), servesAll (by decide +kernel), by decide +kernel⟩

/-- The pool is empty and the fault record is frozen. -/
def frozen : State :=
  { onAir with
    store := { store with pool := [] }
    script := { script with fault := some { causes := ⟨true, false, false, false⟩, kind := .insert, slot := 4, line := 0
                                            frame := 9 } } }

theorem test_hyp_EditRefused_frozen :
    Serving (asking 0x28 [0, 0, 3, 0, 0, 0, 0, 0] frozen) 0x28 [0, 0, 3, 0, 0, 0, 0, 0] ∧
    frozen.store.pool = [] ∧ frozen.script.fault ≠ none ∧ Serving (asking 0x2D [] frozen) 0x2D [] :=
  ⟨serves (by decide +kernel), rfl, by decide +kernel, serves (by decide +kernel)⟩

theorem test_hyp_CompletedEdits :
    (∀ b ∈ [[0, 0, 3, 0, 0, 0, 0, 0], [0, 0, 0, 0, 0, 0, 0, 0], [6, 0, 0, 0, 0, 0, 0, 0], [5, 0, 1, 0, 0, 0, 0, 0]],
      Serving (asking 0x28 b onAir) 0x28 b ∧ (checkRecord (b.drop 3)).isSome = true) ∧
    (∀ b ∈ [[0, 0, 2, 0, 0, 0, 0, 0], [5, 0, 0, 0, 0, 0, 0, 0]], Serving (asking 0x29 b onAir) 0x29 b) ∧
    (∀ b ∈ [[0, 0, 0, 3], [0, 0, 2, 1], [5, 0, 0, 1]], Serving (asking 0x2A b onAir) 0x2A b) ∧
    onAir.script.stories[(0 : Slot)].access = .opened ∧ onAir.script.stories[(5 : Slot)].access = .watched ∧
    onAir.script.stories[(0 : Slot)].lines.length < onAir.script.stories[(0 : Slot)].limit ∧
    onAir.script.stories[(6 : Slot)].lines.length < onAir.script.stories[(6 : Slot)].limit := by
  refine ⟨fun b hb => ⟨servesAll (bodies := [[0, 0, 3, 0, 0, 0, 0, 0], [0, 0, 0, 0, 0, 0, 0, 0], [6, 0, 0, 0, 0, 0, 0, 0],
    [5, 0, 1, 0, 0, 0, 0, 0]]) (by decide +kernel) b hb, ?_⟩, servesAll (by decide +kernel),
    servesAll (by decide +kernel), by decide +kernel⟩
  revert b
  decide +kernel

/-! ### Hypotheses met: motion requests -/

/-- The engine in a motion state, with a target where the state has one. -/
def moving (m : Motion) : State :=
  onAir.withEngine { engine with
    motion := m, velocity := 300, live := some ⟨1, 0⟩
    goal := match m with
      | .stepping => some ⟨false, 4, 0⟩
      | .gliding => some ⟨true, 0, 2⟩
      | _ => none }

/-- Nothing is eligible. -/
def emptyScript : State := State.reset

theorem test_hyp_RunStopHalt : ∀ m ∈ [Motion.halted, .running, .stopping, .stepping, .gliding],
    ∀ k ∈ [(0x30 : Byte), 0x31, 0x32], Serving (asking k [] (moving m)) k [] ∧ (moving m).engine.motion = m ∧
      (moving m).engine.live ≠ none := by
  intro m hm k hk
  have h : ([Motion.halted, .running, .stopping, .stepping, .gliding].all (fun m =>
      [(0x30 : Byte), 0x31, 0x32].all (fun k => ready k (moving m) []))) = true := by decide +kernel
  exact ⟨serves (List.all_eq_true.1 (List.all_eq_true.1 h m hm) k hk), rfl, nofun⟩

theorem test_hyp_Run_void : Serving (asking 0x30 [] emptyScript) 0x30 [] ∧ emptyScript.engine.motion = .halted ∧
    emptyScript.engine.live = none := ⟨serves (by decide +kernel), rfl, rfl⟩

/-- An expiry action STOP waits at the engine. -/
theorem test_hyp_StopAction : (sendStop (moving .running)).mail.engineStops = [{ req := false, body := () }] ∧
    (sendStop (moving .running)).mail.engineReports = [] := by decide +kernel

theorem test_hyp_Step :
    (∀ b ∈ [[0], [17], [0xEF], [1], [16], [0xFF], [0xF0]], Serving (asking 0x33 b onAir) 0x33 b) ∧
    (0xEF : Byte).toInt = -17 ∧ (0xF0 : Byte).toInt = -16 ∧ (16 : Byte).toInt = 16 ∧
    Serving (asking 0x33 [1] (moving .running)) 0x33 [1] ∧ (moving .running).engine.motion ≠ .halted ∧
    onAir.engine.live = some ⟨0, 0⟩ ∧ (onAir.script.reach 0).isSome = true :=
  ⟨servesAll (by decide +kernel), by decide +kernel, by decide +kernel, by decide +kernel, serves (by decide +kernel),
    by decide +kernel, rfl, by decide +kernel⟩

theorem test_hyp_GoTo :
    (∀ b ∈ [[64, 0, 0, 0], [0, 0, 0, 251], [0, 0, 3, 0], [63, 0, 0, 0], [3, 0, 0, 0], [5, 0, 0, 0], [1, 0, 1, 250],
      [1, 0, 0, 0], [0, 0, 0, 250]], Serving (asking 0x34 b onAir) 0x34 b) ∧
    onAir.script.eligible 1 = true ∧ onAir.script.eligible 3 = false ∧ onAir.script.locate 0 = some (0, 0) ∧
    onAir.script.stories[(1 : Slot)].lines[1]? = some 4 ∧ onAir.script.entryIndex 0 = some 0 ∧
    onAir.script.entryIndex 1 = some 1 ∧
    (∀ e ∈ (onAir.script.order.drop (0 + 1)).take (1 - 0 - 1), onAir.script.standing e ≠ .gap) :=
  ⟨servesAll (by decide +kernel), by decide +kernel⟩

/-- The floated entry read again lies past the gap of the load. -/
def pastGap : State := { onAir with script := { script with order := script.order.set 4 ⟨5, false⟩ } }

theorem test_hyp_GoTo_gap : Serving (asking 0x34 [5, 0, 0, 0] pastGap) 0x34 [5, 0, 0, 0] ∧
    pastGap.script.eligible 5 = true ∧ pastGap.script.entryIndex 5 = some 4 ∧
    (∃ e ∈ (pastGap.script.order.drop (0 + 1)).take (4 - 0 - 1), pastGap.script.standing e = .gap) ∧
    Serving (asking 0x34 [0, 0, 0, 0] (moving .running)) 0x34 [0, 0, 0, 0] :=
  ⟨serves (by decide +kernel), by decide +kernel, by decide +kernel, by decide +kernel, serves (by decide +kernel)⟩

/-- DESK holds the drive. -/
def deskHolds : State :=
  onAir.withArbiter { onAir.arbiter with deskClaim := true, holder := some .desk }

/-- The holder's input waits at the engine. -/
def input (x : HolderInput) (s : State) : State :=
  s.withMail { s.mail with engineInput := [{ req := false, body := x }] }

theorem test_hyp_TargetSettingsAndPreview :
    (∀ b ∈ [[2, 1], [2, 0], [0xFE, 0], [0xFD, 0xFF]], Serving (asking 0x35 b deskHolds) 0x35 b) ∧
    s16 [0xFE, 0] 0 = -512 ∧ s16 [0xFD, 0xFF] 0 = -513 ∧ deskHolds.engine.settings.maxSpeed = 512 ∧
    deskHolds.arbiter.holder = some .desk ∧ onAir.arbiter.holder ≠ some .desk ∧
    Serving (asking 0x35 [2, 0] onAir) 0x35 [2, 0] ∧
    (input (.setTarget 9999) onAir).mail.engineInput = [{ req := false, body := .setTarget 9999 }] ∧
    (∀ b ∈ [[0, 0, 0, 1, 0, 16, 0], [4, 1, 0, 1, 0, 16, 0], [0, 1, 0, 0, 0, 16, 0], [0, 1, 1, 1, 0, 16, 0],
      [0, 1, 0, 1, 0, 15, 0], [0, 1, 0, 1, 4, 1, 0], [0, 1, 0, 1, 0, 16, 2], [0, 1, 0, 1, 0, 16, 1],
      [4, 0, 1, 0, 4, 0, 0]], Serving (asking 0x36 b onAir) 0x36 b) ∧
    (∀ b ∈ [[0xFF, 0, 0], [64, 0, 0], [0xFE, 0, 0], [63, 0, 0], [0, 0, 3], [2, 0, 0], [0, 0, 2], [7, 0, 0]],
      Serving (asking 0x37 b onAir) 0x37 b) :=
  ⟨servesAll (by decide +kernel), by decide +kernel, by decide +kernel, rfl, rfl, by decide +kernel,
    serves (by decide +kernel), rfl, servesAll (by decide +kernel), servesAll (by decide +kernel)⟩

/-! ### Hypotheses met: the frame advance and the script-change reports -/

/-- A frame start waits at the engine. -/
def framed (s : State) : State := s.withMail { s.mail with engineFrames := [{ req := false, body := 7 }] }

theorem test_hyp_FrameAlwaysPublished : (framed onAir).mail.engineFrames = [{ req := false, body := 7 }] ∧
    (framed onAir).mail.engineReports = [] ∧ (framed onAir).engine.motion = .halted := by decide +kernel

/-- A running scroll with a velocity and a target, at a position. -/
def running (live : Pos) (v : Int) (m : Motion) : State :=
  framed (onAir.withEngine { engine with live := some live, motion := m, velocity := v, target := v })

/-- What every case of an advance without markers needs. -/
def plainAdvance (s : State) (p : Pos) : Bool :=
  s.mail.engineFrames = [{ req := false, body := 7 }] ∧ s.mail.engineReports = [] ∧ s.mail.cueReports = [] ∧
  s.mail.cueJumps = [] ∧ s.cues.quiet = true ∧ s.cues.queue = [] ∧ s.engine.live = some p ∧
  (s.script.reach p.block).isSome = true ∧ (s.script.locate p.block).isSome = true

/-- Travel inside the script, to each travel limit and just short of it, and at velocity 0; the script ahead ends at a
gap. -/
theorem test_hyp_FrameAdvanceRuns : plainAdvance (running ⟨0, 0⟩ 0 .running) ⟨0, 0⟩ = true ∧
    plainAdvance (running ⟨4, 5⟩ 250 .running) ⟨4, 5⟩ = true ∧
    plainAdvance (running ⟨4, 5⟩ 249 .running) ⟨4, 5⟩ = true ∧
    plainAdvance (running ⟨0, 5⟩ (-5) .running) ⟨0, 5⟩ = true ∧
    plainAdvance (running ⟨0, 5⟩ (-4) .running) ⟨0, 5⟩ = true ∧
    plainAdvance (running ⟨0, 5⟩ 16 .stopping) ⟨0, 5⟩ = true ∧
    plainAdvance (running ⟨0, 5⟩ 17 .stopping) ⟨0, 5⟩ = true ∧ toward 17 0 16 = 1 ∧
    plainAdvance (running ⟨4, 200⟩ 100 .stopping) ⟨4, 200⟩ = true ∧ toward 100 0 16 = 84 ∧
    toward 16 0 (running ⟨0, 5⟩ 16 .stopping).engine.settings.accel = 0 ∧
    (onAir.script.reach 4).map (fun r => (r.ahead, r.foreGap)) = some (255, true) ∧
    (onAir.script.reach 0).map (fun r => (r.behind, r.backGap)) = some (0, false) := by decide +kernel

/-- A scroll under way to a target. -/
def seeking (live : Pos) (g : Goal) : State :=
  framed (onAir.withEngine { engine with
    live := some live, motion := if g.glide then .gliding else .stepping, goal := some g })

/-- Short of the target and at it, both ways, by step and by glide, with frames left and with none. -/
theorem test_hyp_FrameAdvanceToTarget : ∀ x ∈ [((⟨0, 0⟩ : Pos), (⟨false, 1, 0⟩ : Goal)), (⟨0, 128⟩, ⟨false, 1, 0⟩),
      (⟨1, 10⟩, ⟨false, 1, 0⟩), (⟨0, 0⟩, ⟨true, 4, 2⟩), (⟨4, 0⟩, ⟨true, 0, 1⟩), (⟨4, 0⟩, ⟨true, 0, 0⟩),
      (⟨0, 0⟩, ⟨true, 0, 3⟩)],
    plainAdvance (seeking x.1 x.2) x.1 = true ∧ (seeking x.1 x.2).engine.goal = some x.2 ∧
    ((onAir.script.reach x.1.block).bind (fun r => r.offset x.1.block x.2.block)).isSome = true := by decide +kernel

/-- The floated entry read again lies past the gap of the load: a step and a glide toward its line, both ways, short of the
travel limit and at it. -/
theorem test_hyp_FrameAdvanceTowardGap :
    let beyond (p : Pos) (g : Goal) : State :=
      { seeking p g with script := { script with order := script.order.set 4 ⟨5, false⟩ } }
    (∀ x ∈ [((⟨4, 0⟩ : Pos), (⟨false, 8, 0⟩ : Goal)), (⟨4, 128⟩, ⟨false, 8, 0⟩), (⟨0, 0⟩, ⟨true, 8, 2⟩)],
      plainAdvance (beyond x.1 x.2) x.1 = true ∧ (beyond x.1 x.2).engine.goal = some x.2 ∧
      ((beyond x.1 x.2).script.reach x.1.block).bind (fun r => r.offset x.1.block 8) = none ∧
      (beyond x.1 x.2).script.locate 8 = some (5, 0) ∧ (beyond x.1 x.2).script.entryIndex 5 = some 4 ∧
      (beyond x.1 x.2).script.entryIndex 0 = some 0 ∧ (beyond x.1 x.2).script.entryIndex 1 = some 1) ∧
    plainAdvance (beyond ⟨8, 0⟩ ⟨false, 4, 0⟩) ⟨8, 0⟩ = true ∧
    ((beyond ⟨8, 0⟩ ⟨false, 4, 0⟩).script.reach 8).bind (fun r => r.offset 8 4) = none := by decide +kernel

/-- The order of the script on air: the standings, the places, and what is reached from the first line and over no gap. -/
theorem test_hyp_ScriptOrder : (onAir.script.order.map (·.slot)).Nodup ∧ onAir.script.allLines.Nodup ∧
    onAir.script.order.map onAir.script.standing = [.eligible, .eligible, .gap, .eligible, .passed, .passed] ∧
    onAir.script.locate 4 = some (1, 1) ∧ onAir.script.locate 10 = none ∧
    onAir.script.reach 1 = some { back := [0], backGap := false, fore := [2, 3, 4], foreGap := true } ∧
    onAir.script.reach 6 = none := by decide +kernel

/-- The distances of the line ahead, the line behind and the block itself. -/
theorem test_hyp_Distances :
    let r : Reach := { back := [0], backGap := false, fore := [2, 3], foreGap := true }
    (1 :: r.fore)[2]? = some 3 ∧ r.at 1 (256 * 2 + 7) = ⟨3, 7⟩ ∧ r.at 1 (7 - 256) = ⟨0, 7⟩ ∧ r.offset 1 3 = some 512 ∧
    r.offset 1 0 = some (-256) ∧ r.offset 1 1 = some 0 ∧ r.offset 1 9 = none ∧
    toward 100 105 16 = 105 ∧ toward 100 200 16 = 116 ∧ toward 100 0 16 = 84 := by decide +kernel

/-- A script-change report waits at the engine. -/
def changed (x : ScriptReport) (s : State) : State :=
  s.withMail { s.mail with engineReports := [{ req := false, body := x }] }

theorem test_hyp_QuietReports :
    (changed (.insert 0 3 10) onAir).mail.engineReports = [{ req := false, body := .insert 0 3 10 }] ∧
    (changed .orderChanged onAir).mail.engineReports = [{ req := false, body := .orderChanged }] ∧
    (changed (.eligible 1) onAir).engine.live ≠ none ∧
    (let s := changed (.eligible 0) (onAir.withEngine Engine.reset)
     s.engine.live = none ∧ s.engine.liveSlot = none ∧ s.script.firstEligible s.script.order = some 0 ∧
     s.script.stories[(0 : Slot)].lines.head? = some 0 ∧ s.script.locate 0 = some (0, 0)) := by decide +kernel

/-- Each of the five reports at the head, one more behind it. -/
theorem test_hyp_ReportsTakenFirst : onAir.mail.engineReports = [] ∧
    ∀ x ∈ [ScriptReport.insert 0 3 10, .delete 0 0 [0], .ineligible 0 0, .eligible 1, .orderChanged],
      (sendReports [x, .orderChanged] onAir).mail.engineReports =
        [{ req := false, body := x }, { req := false, body := .orderChanged }] := by decide +kernel

/-- The script after lines of slot 0 have gone, the report still to be taken. -/
def cutTo (left run : List Nat) (first : Nat) (e : Engine) : State :=
  changed (.delete 0 first run)
    { onAir with engine := e, script := script.withStory 0 { script.stories[(0 : Slot)] with lines := left } }

/-- A run with lines after it, at the end, and the whole story; the reading line in it and outside; a target in it. -/
theorem test_hyp_DeleteReport :
    (cutTo [1, 2] [0] 0 engine).mail.engineReports = [{ req := false, body := .delete 0 0 [0] }] ∧
    (cutTo [1, 2] [0] 0 engine).script.stories[(0 : Slot)].lines = [1, 2] ∧
    (cutTo [0, 1] [2] 2 engine).script.stories[(0 : Slot)].lines = [0, 1] ∧
    (cutTo [] [0, 1, 2] 0 engine).script.stories[(0 : Slot)].lines = [] ∧
    engine.live = some ⟨0, 0⟩ ∧ (0 : Nat) ∈ [0] ∧ (0 : Nat) ∉ [2] ∧
    (cutTo [0, 1] [2] 2 { engine with motion := .stepping, goal := some ⟨false, 2, 0⟩ }).engine.goal =
      some ⟨false, 2, 0⟩ ∧ engine.goal = none := by decide +kernel

/-- The reports of one request are taken as one: the delete that empties the live story, and the relocation out of it. -/
theorem test_reportsOneWhole : after (fun t => (t.engine.live, t.engine.liveSlot, t.mail.engineReports))
    (exec .deleteReport (sendReports [.ineligible 0 0, .orderChanged] (cutTo [] [0, 1, 2] 0 engine))) =
    some (some ⟨3, 0⟩, some 1, []) := by decide +kernel

/-- The live position's own story, with a story after it; one with only a story before it; another slot, with a step
target in it and without. -/
theorem test_hyp_StoryIneligibleReport :
    (changed (.ineligible 0 0) onAir).mail.engineReports = [{ req := false, body := .ineligible 0 0 }] ∧
    onAir.engine.live ≠ none ∧ onAir.engine.liveSlot = some 0 ∧ onAir.engine.motion = .halted ∧
    (moving .running).engine.motion ≠ .halted ∧ (moving .running).engine.liveSlot = some 0 ∧
    onAir.engine.liveSlot ≠ some 1 ∧
    (moving .stepping).engine.goal.any (fun g => ((moving .stepping).script.locate g.block).map (·.1) = some 1) = true ∧
    emptyScript.engine.live = none := by decide +kernel

theorem test_hyp_KeyAndJog :
    (input .key onAir).mail.engineReports = [] ∧ (input .key onAir).mail.engineInput = [{ req := false, body := .key }] ∧
    onAir.engine.live ≠ none ∧ onAir.engine.settings.stepKeys = false ∧
    (∀ m ∈ [Motion.running, .stopping, .stepping, .gliding], (input .key (moving m)).engine.motion = m) ∧
    (input .key emptyScript).engine.live = none ∧
    (let keyed := onAir.withEngine { engine with settings := { engine.settings with stepKeys := true } }
     (input .key keyed).engine.live = some ⟨0, 0⟩ ∧ (keyed.script.reach 0).isSome = true ∧
     keyed.engine.motion = .halted ∧ keyed.engine.settings.stepKeys = true) ∧
    (∀ m ∈ [Motion.running, .stopping, .stepping, .gliding], (moving m).engine.live = some ⟨1, 0⟩ ∧
      (input (.jog 700) (moving m)).mail.engineInput = [{ req := false, body := .jog 700 }]) ∧
    (onAir.script.reach 1).isSome = true ∧ (input (.jog 0) onAir).mail.engineInput = [{ req := false, body := .jog 0 }] ∧
    (input (.jog (-1)) onAir).mail.engineInput = [{ req := false, body := .jog (-1) }] ∧ (-1 : Int) ≠ 0 ∧
    onAir.mail.cueReports = [] ∧ onAir.mail.cueJumps = [] ∧ onAir.cues.quiet = true ∧ onAir.cues.queue = [] := by
  decide +kernel

/-! ### Hypotheses met: cues and timers -/

def pause : CueEntry := { block := 3, kind := .pause, param := 255, skipped := false }

/-- The queue as a rebuild against the live position leaves it. -/
def cued (q : List CueEntry) (s : State) : State := s.withCues { s.cues with queue := q }

def note : CueEntry := { block := 1, kind := .note, param := 0, skipped := false }

/-- A queued entry whose line has left the scroll. -/
def gone : CueEntry := { note with block := 6 }

/-- An end block in no eligible story; spans from a line and from a block that is gone, met and not reached by the queue;
the first marker met at the head and behind an entry whose line is gone, a PAUSE, SKIPPED and of another kind. -/
theorem test_hyp_SpanPassed :
    onAir.mail.cueReports = [] ∧ onAir.mail.cueJumps = [] ∧ onAir.cues.quiet = true ∧ onAir.cues.queue = [] ∧
    onAir.script.reach 6 = none ∧ (onAir.script.reach 4).isSome = true ∧
    (onAir.script.reach 0).map (·.fore) = some [1, 2, 3, 4] ∧ (onAir.script.reach 4).map (·.back) = some [3, 2, 1, 0] ∧
    (onAir.script.reach 2).map (·.back) = some [1, 0] ∧
    (cued [pause] onAir).cues.queue[0]? = some pause ∧ (cued [gone, note] onAir).cues.queue[1]? = some note ∧
    ([1, 2] : List Nat)[0]? = some note.block ∧ gone.block ≠ note.block ∧ pause.block ∉ [1, 2] ∧
    pause.kind = .pause ∧ pause.skipped = false ∧ note.kind ≠ .pause := by
  decide +kernel

/-- Each of those, run: the queue left, the block paused at, and the record of the last marker fired. -/
theorem test_spanPassed :
    let run (q : List CueEntry) (start stop : Nat) (m : CheckMode) : List Nat × Option Nat × Option MarkerKind :=
      let x := passageCheck ⟨start, 9⟩ ⟨stop, 0⟩ true m (cued q onAir)
      (x.1.cues.queue.map (·.block), x.2, x.1.cues.lastFired.map (·.kind))
    run [note, pause] 0 2 .fire = ([3], none, some .note) ∧ run [note, pause] 0 3 .fire = ([], some 3, some .pause) ∧
    run [{ note with skipped := true }, pause] 0 2 .fire = ([3], none, none) ∧
    run [note, pause] 0 4 .silent = ([], none, none) ∧ run [pause] 0 2 .fire = ([3], none, none) ∧
    run [note, pause] 9 4 .fire = ([], some 3, some .pause) := by decide +kernel

/-- With the start block gone, a check takes what the refill brings in behind the queue too, and every queued marker at or
before its end though the head's own line has gone with it. -/
theorem test_spanPassed_startGone :
    (passageCheck ⟨9, 9⟩ ⟨4, 0⟩ true .silent (cued [note] onAir)).1.cues.queue = [] ∧
    (passageCheck ⟨9, 9⟩ ⟨4, 0⟩ true .silent (cued [gone, note, pause] onAir)).1.cues.queue = [gone] ∧
    (passageCheck ⟨9, 9⟩ ⟨4, 0⟩ true .fire (cued [gone, note, pause] onAir)).2 = some 3 ∧
    (passageCheck ⟨9, 9⟩ ⟨2, 0⟩ true .fire (cued [gone, note, pause] onAir)).1.cues.queue = [gone, pause] := by
  decide +kernel

theorem test_hyp_QueueRefilled : onAir.script.reach 9 = none ∧ (onAir.script.reach 0).isSome = true ∧
    note ∈ markersOf store [0, 1, 2] ∧ (refill script store 0 [note]).map (·.block) = [1, 3] ∧
    (refill script store 0 []).map (·.block) = [1, 3] := by decide +kernel

theorem test_hyp_MarkerFires : (onAir.script.locate pause.block).isSome = true ∧
    ({ pause with kind := .timerStart, param := 5 } : CueEntry).param = (5 : TimerNo).val ∧
    1 ≤ ({ pause with kind := .lamp, param := 1 } : CueEntry).param ∧ onAir.cues.flashCount = 0 := by decide +kernel

/-- The travel of one advance meets the PAUSE of block 3 from the line before it. -/
def towardPause : State :=
  cued [pause] (framed (onAir.withEngine { engine with
    live := some ⟨2, 200⟩, motion := .running, velocity := 100, target := 100 }))

theorem test_hyp_PauseStopsTheScroll :
    towardPause.mail.engineFrames = [{ req := false, body := 7 }] ∧ towardPause.mail.engineReports = [] ∧
    towardPause.mail.cueReports = [] ∧ towardPause.mail.cueJumps = [] ∧ towardPause.cues.quiet = true ∧
    towardPause.engine.motion = .running ∧ towardPause.engine.live = some ⟨2, 200⟩ ∧
    0 < toward 100 100 towardPause.engine.settings.accel ∧
    (towardPause.script.reach 2).map (fun r => r.at 2 (min r.ahead ((200 : Int) + toward 100 100 16))) =
      some ⟨3, 44⟩ ∧
    (towardPause.script.reach 3).isSome = true ∧
    (towardPause.script.reach 2).bind (fun r => r.fore.findIdx? (· = 3)) = some 0 ∧
    (towardPause.script.reach 2).bind (fun r => r.fore[0]?) = some pause.block ∧
    towardPause.cues.queue[0]? = some pause := by decide +kernel

/-- The same from STOPPING and STEPPING, where the PAUSE line is the step target and where a GAP cuts the target off. -/
theorem test_hyp_PauseStopsTheScroll_stepping :
    (∀ s ∈ [running ⟨2, 200⟩ 100 .stopping, seeking ⟨2, 200⟩ ⟨false, 3, 0⟩,
        { seeking ⟨2, 200⟩ ⟨false, 8, 0⟩ with script := { script with order := script.order.set 4 ⟨5, false⟩ } }],
      (cued [pause] s).engine.live = some ⟨2, 200⟩ ∧ (cued [pause] s).cues.queue[0]? = some pause ∧
      s.mail.engineReports = [] ∧ s.mail.cueReports = [] ∧ s.mail.cueJumps = [] ∧ s.cues.quiet = true ∧
      (s.script.reach 2).bind (fun r => r.fore[0]?) = some 3) ∧
    0 < toward 100 0 16 ∧ engine.settings.stepSpeed = 128 ∧ (onAir.script.reach 2).bind (fun r => r.offset 2 3) = some 256 ∧
    (onAir.script.reach 2).map (fun r => (r.at 2 (min r.ahead (200 + 56)), r.at 2 (min r.ahead (200 + 84)),
      r.at 2 (min r.ahead (200 + 128)))) = some (⟨3, 0⟩, ⟨3, 28⟩, ⟨3, 72⟩) := by decide +kernel

/-- Markers queued ahead of an advance of each kind, and of a jog. -/
theorem test_hyp_AdvanceChecked :
    ∀ s ∈ [running ⟨0, 200⟩ 300 .running, running ⟨0, 200⟩ 100 .stopping, running ⟨0, 200⟩ 0 .running,
        running ⟨0, 5⟩ 16 .stopping, running ⟨4, 5⟩ 250 .running, running ⟨0, 5⟩ (-5) .running,
        seeking ⟨0, 200⟩ ⟨false, 1, 0⟩, seeking ⟨0, 0⟩ ⟨true, 4, 1⟩],
      (cued [note, pause] s).mail.engineFrames = [{ req := false, body := 7 }] ∧ s.mail.engineReports = [] ∧
      (s.engine.live.bind (fun p => s.script.reach p.block)).isSome = true ∧
      (s.engine.live.bind (fun p => s.script.locate p.block)).isSome = true := by decide +kernel

/-- Where a command leaves the scroll over a queue: position, motion state, halt cause, the queue, and the marker fired
last. -/
def travels (c : Instr) (q0 : List CueEntry) (s : State) (live : Pos) (m : Motion) (h : HaltCause) (q : List Nat)
    (k : Option MarkerKind) : Bool :=
  match exec c (cued q0 s) with
  | .next t => t.engine.live == some live && t.engine.motion == m && t.engine.haltCause == h &&
      t.cues.queue.map (·.block) == q && t.cues.lastFired.map (·.kind) == k
  | _ => false

/-- An ARMED NOTE fires and the advance ends where it would have; a glide passes it and the PAUSE in silence; the PAUSE
on the step target gives MARKER. -/
theorem test_advanceChecked :
    travels .frameAdvance [note, pause] (running ⟨0, 200⟩ 300 .running) ⟨1, 244⟩ .running .powerOn [3] (some .note) ∧
    travels .frameAdvance [note, pause] (running ⟨0, 200⟩ 100 .stopping) ⟨1, 28⟩ .stopping .powerOn [3] (some .note) ∧
    travels .frameAdvance [note, pause] (seeking ⟨0, 200⟩ ⟨false, 1, 0⟩) ⟨1, 0⟩ .halted .stepDone [3] (some .note) ∧
    travels .frameAdvance [note, pause] (seeking ⟨0, 0⟩ ⟨true, 4, 1⟩) ⟨4, 0⟩ .halted .arrived [] none ∧
    travels .frameAdvance [pause] (seeking ⟨2, 200⟩ ⟨false, 3, 0⟩) ⟨3, 0⟩ .halted .marker [] (some .pause) := by decide +kernel

/-- A jog over both: paused in HALTED the cause stays, in RUNNING it is MARKER. -/
theorem test_jogPaused :
    travels .jog [note, pause] (input (.jog 800) onAir) ⟨3, 0⟩ .halted .powerOn [] (some .pause) ∧
    travels .jog [note, pause] (input (.jog 800) (running ⟨0, 0⟩ 100 .running)) ⟨3, 0⟩ .halted .marker [] (some .pause) ∧
    travels .jog [note, pause] (input (.jog 800) (running ⟨0, 0⟩ 100 .stopping)) ⟨3, 0⟩ .halted .request [] (some .pause) := by
  decide +kernel

/-- A frame start waits at the Cue Monitor; a count and a timer are at 1. -/
def cueFramed : State :=
  { onAir with
    cues := { onAir.cues with
      flashCount := 1
      timers := onAir.cues.timers.set 0 { Timer.reset with count := 1, running := true, action := .lamp } }
    mail := { onAir.mail with cueFrames := [{ req := false, body := 7 }] } }

/-- Timer 4 expires over a CHAINED timer 5 that stands at 1, one that runs; then timer 5, the last. -/
def expiring (n : TimerNo) : State :=
  onAir.withCues { onAir.cues with
    expiring := [n]
    timers := (onAir.cues.timers.set 4 { Timer.reset with running := true, mode := .reload, action := .stop }).set 5
      { Timer.reset with count := 1, running := true, mode := .chained } }

theorem test_hyp_CueTime : cueFramed.mail.cueFrames = [{ req := false, body := 7 }] ∧ cueFramed.mail.cueReports = [] ∧
    cueFramed.mail.cueJumps = [] ∧ cueFramed.cues.quiet = true ∧
    (∀ n : TimerNo, (expiring n).cues.expiring = [n] ∧ (expiring n).cues.flashEndDue = false ∧
      (expiring n).cues.flagEndDue = false) ∧
    (expiring 4).cues.timers[(5 : TimerNo)].running = true ∧ (expiring 4).cues.timers[(5 : TimerNo)].mode = .chained := by
  decide +kernel

theorem test_hyp_QueueRebuilt :
    (let s := sendJumped onAir
     s.cues.quiet = true ∧ s.mail.cueJumps = [{ req := false, body := () }] ∧ s.engine.live = some ⟨0, 0⟩ ∧
     (s.script.reach 0).isSome = true) ∧
    (sendRewritten 0 1 onAir).mail.cueReports = [{ req := false, body := .rewritten 0 1 }] ∧
    (sendReports [.orderChanged] onAir).mail.cueReports = [{ req := false, body := .report .orderChanged }] ∧
    emptyScript.engine.live = none ∧ emptyScript.cues.quiet = true ∧
    (setLive (some ⟨6, 0⟩) onAir).script.reach 6 = none := by decide +kernel

/-- A jump takes the reports that wait with it; a report takes those behind it; against a position that has left the
scroll the entries in it stay. -/
theorem test_queueRebuilt : after (fun t => (t.mail.cueReports, t.mail.cueJumps, t.cues.queue.map (·.block)))
      (exec .positionJumped (sendJumped (sendReports [.orderChanged] onAir))) = some ([], [], [1, 3]) ∧
    after (fun t => (t.mail.cueReports, t.cues.queue.map (·.block)))
      (exec .scriptChangeReport (sendReports [.eligible 1, .orderChanged] onAir)) = some ([], [1, 3]) ∧
    after (·.cues.queue.map (·.block)) (exec .scriptChangeReport (sendReports [.orderChanged]
      (setLive (some ⟨6, 0⟩) (cued [gone, pause] onAir)))) = some [3] := by decide +kernel

theorem test_hyp_CueRequests :
    (∀ b ∈ [[0], [1], [2], [255]], Serving (asking 0x51 b (cued [pause, { pause with skipped := true }] onAir)) 0x51 b) ∧
    (cued [pause, { pause with skipped := true }] onAir).cues.queue[1]? = some { pause with skipped := true } :=
  ⟨servesAll (by decide +kernel), rfl⟩

theorem test_hyp_TimerRequests :
    (∀ b ∈ [[6, 0, 0, 1, 0], [5, 3, 0, 1, 0], [5, 0, 0, 1, 3], [5, 0, 0, 0, 0], [0, 2, 0, 1, 0], [1, 2, 0, 1, 2],
      [5, 1, 0xFF, 0xFF, 1], [0, 0, 0, 1, 0]], Serving (asking 0x52 b onAir) 0x52 b) ∧
    (∀ b ∈ [[5], [6]], Serving (asking 0x53 b onAir) 0x53 b) ∧ (∀ b ∈ [[5], [6]], Serving (asking 0x54 b onAir) 0x54 b) :=
  ⟨servesAll (by decide +kernel), servesAll (by decide +kernel), servesAll (by decide +kernel)⟩

/-! ### Hypotheses met: the drive -/

/-- Ports 0 and 3 are recorded as ENABLED, with a holder and a waiting list. -/
def driven (holder : Option Source) (joined : List PortNo) : State :=
  let a : Arbiter := { Arbiter.reset with enabled := #v[true, false, false, true], holder := holder, joined := joined
                                          deskClaim := decide (holder = some .desk) }
  onAir.withArbiter { a with driveStates := #v[a.stateOf 0, a.stateOf 1, a.stateOf 2, a.stateOf 3] }

theorem test_driven_inv : ArbiterInv (driven none []).arbiter ∧
    ArbiterInv (driven (some .desk) [0]).arbiter ∧ ArbiterInv (driven (some (.port 3)) []).arbiter ∧
    ArbiterInv (driven (some (.port 0)) [3]).arbiter := by
  refine ⟨⟨?_, ?_, ?_, ?_, ?_, ?_⟩, ⟨?_, ?_, ?_, ?_, ?_, ?_⟩, ⟨?_, ?_, ?_, ?_, ?_, ?_⟩, ⟨?_, ?_, ?_, ?_, ?_, ?_⟩⟩ <;>
    decide +kernel

/-- A port's message waits at the arbiter. -/
def sent (p : PortNo) (m : PortMsg) (s : State) : State := sendArbiter p m s

/-- A pin bars the other ports; with none the mode bars a class. -/
theorem test_hyp_Bars :
    let a (pin : Option PortNo) (m : DriveMode) : Arbiter := { Arbiter.reset with pin := pin, mode := m }
    (a (some 0) .equal).barred 3 = true ∧ (a (some 3) .operatorOnly).barred 3 = false ∧
    (a none .operatorOnly).barred 3 = true ∧ (a none .operatorOnly).barred 0 = false ∧
    (a none .presenterOnly).barred 0 = true ∧ (a none .equal).barred 3 = false := by decide +kernel

theorem test_hyp_Claim : (sent 3 .claim onAir).mail.toArbiter[(3 : PortNo)] = [{ req := false, body := .claim }] ∧
    onAir.arbiter.enabled[(3 : PortNo)] = false ∧
    (driven (some (.port 3)) []).arbiter.holder = some (.port 3) ∧
    (driven none []).arbiter.barred 3 = false ∧ (driven none []).arbiter.enabled[(3 : PortNo)] = true ∧
    (driven none []).arbiter.holder = none ∧ (driven (some .desk) [0]).arbiter.holder = some .desk ∧
    (driven (some (.port 3)) []).arbiter.mode = .operatorFirst ∧
    (driven (some (.port 3)) []).arbiter.classes[(0 : PortNo)] = .operator ∧
    (driven (some (.port 3)) []).arbiter.classes[(3 : PortNo)] = .presenter := by decide +kernel

theorem test_hyp_Release :
    (driven (some .desk) []).arbiter.deskClaim = true ∧ (driven none []).arbiter.deskClaim = false ∧
    ({ (driven none []).arbiter with pin := some 3 } : Arbiter).enabled[(3 : PortNo)] = true ∧
    ({ (driven none []).arbiter with pin := some 2 } : Arbiter).enabled[(2 : PortNo)] = false ∧
    (let a := { (driven none []).arbiter with joined := [3, 0] }
     (a.joined.filter (fun p => a.classes[p] = .operator) ++
        a.joined.filter (fun p => a.classes[p] = .presenter)).head? = some 0) ∧
    (driven none []).arbiter.joined = [] := by decide +kernel

theorem test_hyp_PortMessages : ∀ m ∈ [PortMsg.idle, .ready, .gone, .key, .setTarget 5, .jog (-64)],
    (sent 0 m (driven (some (.port 0)) [3])).mail.toArbiter[(0 : PortNo)] = [{ req := false, body := m }] := by
  decide +kernel

theorem test_hyp_DriveRequests :
    (∀ b ∈ [[4], [0xFF], [0], [3], [2], [0xFE]], Serving (asking 0x42 b (driven (some (.port 3)) [0])) 0x42 b) ∧
    (∀ b ∈ [[4], [2], [3], [0]], Serving (asking 0x40 b (driven (some (.port 3)) [0])) 0x40 b) ∧
    (∀ b ∈ [[4, 0], [0, 2], [3, 1], [3, 0]], Serving (asking 0x41 b (driven (some (.port 3)) [0])) 0x41 b) ∧
    Serving (asking 0x43 [] (driven (some (.port 3)) [])) 0x43 [] ∧ (3 : PortNo) ∉ (driven (some (.port 3)) []).arbiter.joined ∧
    Serving (asking 0x43 [] (driven none [])) 0x43 [] ∧ (∀ q, (driven none []).arbiter.holder ≠ some (.port q)) ∧
    Serving (asking 0x43 [] deskHolds) 0x43 [] ∧ Serving (asking 0x44 [] deskHolds) 0x44 [] ∧
    deskHolds.arbiter.deskClaim = true ∧ Serving (asking 0x44 [] onAir) 0x44 [] ∧ onAir.arbiter.deskClaim = false :=
  ⟨servesAll (by decide +kernel), servesAll (by decide +kernel), servesAll (by decide +kernel), serves (by decide +kernel),
    by decide +kernel, serves (by decide +kernel), by decide +kernel, serves (by decide +kernel),
    serves (by decide +kernel), rfl, serves (by decide +kernel), rfl⟩

/-- A pin stands: the clauses of a pin changed, removed and asked for again. -/
theorem test_hyp_PinDrive : ∀ b ∈ [[0xFF], [0], [3]],
    Serving (asking 0x42 b (onAir.withArbiter { onAir.arbiter with pin := some 0 })) 0x42 b :=
  servesAll (by decide +kernel)

/-! ### Hypotheses met: control ports -/

/-- Port 1 in a state, at a moment, its poll out and not answered. -/
def ported (f : Port → Port) (now : Nat) : State :=
  { onAir with
    now := now
    ports := onAir.ports.set 1 (f { onAir.ports[(1 : PortNo)] with nextPoll := 30000 }) }

theorem test_hyp_Attaching :
    (let q := (ported id 20000).ports[(1 : PortNo)]
     q.quiet = true ∧ q.state = .detached ∧ q.holdOff = none ∧ q.watchFrom + 20000 ≤ 20000 ∧ q.supply = false) ∧
    (let q := (ported (fun q => { q with state := .enabled, supply := true }) 20000).ports[(1 : PortNo)]
     q.quiet = true ∧ q.state ≠ .detached ∧ q.watchFrom + 20000 ≤ 20000 ∧ q.supply = true) ∧
    (ported (fun q => { q with holdOff := some 20001 }) 20000).ports[(1 : PortNo)].holdOff = some 20001 := by
  decide +kernel

/-- A poll due at its moment, not due before it, and one that leaves the silence limit reached. -/
theorem test_hyp_Poll :
    (∀ silence ∈ [0, 3, 4],
      let q := (ported (fun q => { q with state := .enabled, silence := silence }) 30000).ports[(1 : PortNo)]
      q.quiet = true ∧ q.state.polls = true ∧ q.nextPoll ≤ 30000 ∧ q.answered = false) ∧
    (let q := (ported (fun q => { q with state := .identifying, silence := 9 }) 30000).ports[(1 : PortNo)]
     q.quiet = true ∧ q.state.polls = true) ∧
    29999 < (ported (fun q => { q with state := .attached }) 29999).ports[(1 : PortNo)].nextPoll ∧
    (ported id 30000).ports[(1 : PortNo)].state.polls = false := by decide +kernel

theorem test_hyp_AfterAPoll :
    (ported (fun q => { q with releaseDue := true }) 0).ports[(1 : PortNo)].releaseDue = true ∧
    (ported id 0).ports[(1 : PortNo)].releaseDue = false ∧ (ported id 0).ports[(1 : PortNo)].silenceDue = false ∧
    (let q := (ported (fun q => { q with state := .identifying, silence := 10 }) 0).ports[(1 : PortNo)]
     q.releaseDue = false ∧ q.state = .identifying ∧ 10 ≤ q.silence) ∧
    (let q := (ported (fun q => { q with state := .enabled, silence := 5 }) 0).ports[(1 : PortNo)]
     q.releaseDue = false ∧ q.state = .enabled ∧ 5 ≤ q.silence) := by decide +kernel

/-- A port that listens, of a kind, in each state that polls, the holder or not. -/
def listening (k : Kind) (st : PortState) (d : DriveState) : State :=
  ported (fun q => { q with state := st, kind := some k, drive := d }) 29999

theorem test_hyp_PortReports :
    ∀ k ∈ [Kind.wheel, .strip, .pedal], ∀ st ∈ [PortState.identifying, .attached, .enabled],
    ∀ d ∈ [DriveState.idle, .holding],
      let q := (listening k st d).ports[(1 : PortNo)]
      q.quiet = true ∧ q.listens (listening k st d).now = true ∧ q.rx = .hunting ∧ q.kind = some k ∧ q.state = st ∧
        q.drive = d := by decide +kernel

/-- A strip that has its baselines, in ATTACHED and ENABLED, the holder or not, touched or not. -/
def stripped (st : PortState) (d : DriveState) : State :=
  ported (fun q => { q with state := st, kind := some .strip, drive := d, acquired := 8
                            baselines := #v[100, 100, 100, 100, 100] }) 29999

theorem test_hyp_StripReport : ∀ st ∈ [PortState.attached, .enabled], ∀ d ∈ [DriveState.idle, .holding],
    let q := (stripped st d).ports[(1 : PortNo)]
    q.quiet = true ∧ q.listens (stripped st d).now = true ∧ q.rx = .hunting ∧ q.kind = some .strip ∧ q.state = st ∧
      q.drive = d ∧ 1 ≤ q.strip.threshold ∧ (∀ i : Fin 5, (#v[4095, 220, 0, 0, 0] : Vector Nat 5)[i] ≤ 4095) := by
  decide +kernel

/-- The middle segment touched gives 128 - 128; nothing touched in style HOLD gives no target. -/
theorem test_strip : (∀ x ∈ [((#v[0, 0, 300, 0, 0] : Vector Nat 5), [PortMsg.claim, .setTarget 0]),
      (#v[0, 0, 219, 0, 0], [])],
    after (fun t => t.mail.toArbiter[(1 : PortNo)].map (·.body))
      (exec (.dataReport 1 (goodChars (portFrame 0x12 (x.1.toList.flatMap two ++ [0])))) (stripped .enabled .holding)) =
      some x.2) := by decide +kernel

/-- A port that does not listen, in each of the ways; and frames that a listening port does not take. -/
theorem test_hyp_ReportsNotTaken :
    (∀ st ∈ [PortState.detached, .faulted],
      (ported (fun q => { q with state := st }) 29999).ports[(1 : PortNo)].quiet = true) ∧
    (ported (fun q => { q with state := .enabled, answered := true }) 29999).ports[(1 : PortNo)].quiet = true ∧
    (ported (fun q => { q with state := .enabled }) 30000).ports[(1 : PortNo)].nextPoll ≤ 30000 ∧
    (0x14 : Byte) ∉ [(0x10 : Byte), 0x11, 0x12, 0x13] ∧ (0x10 + [(4 : Byte)].sum + 0xEC = (0 : Byte)) ∧
    (0x11 + [(1 : Byte), 0].sum + 0 ≠ (0 : Byte)) ∧
    (∀ k ∈ [Kind.strip, .pedal], ((listening k .enabled .idle).ports[(1 : PortNo)].kind ≠ some .wheel)) ∧
    4095 < u16 [0x10, 0x00] 0 := by decide +kernel

/-- Such frames, and one broken by a missing stop bit. -/
theorem test_reportsNotTaken :
    (∀ x ∈ [goodChars (portFrame 0x10 [4]), goodChars [0xC3, 0x11, 1, 0, 0], goodChars (portFrame 0x12 (List.replicate 11 0)),
        goodChars [0xC3, 0x14], [⟨0xC3, true⟩, ⟨0x11, false⟩]],
      after (fun t => (t.ports[(1 : PortNo)].answered, t.ports[(1 : PortNo)].rx))
        (exec (.dataReport 1 x) (listening .wheel .enabled .idle)) = some (false, .hunting)) := by decide +kernel

/-- A strip at each stage of its acquisition, touched and not. -/
theorem test_hyp_StripBaselines :
    (∀ n ∈ [6, 7, 8], ({ onAir.ports[(1 : PortNo)] with acquired := n } : Port).acquired = n) ∧
    1 ≤ onAir.ports[(1 : PortNo)].strip.threshold ∧
    (let q := { onAir.ports[(1 : PortNo)] with acquired := 8, baselines := #v[100, 100, 100, 100, 100] }
     (q.baselines[(1 : Fin 5)] + q.strip.threshold ≤ (#v[100, 220, 100, 100, 100] : Vector Nat 5)[(1 : Fin 5)]) ∧
     ¬ q.baselines[(1 : Fin 5)] + q.strip.threshold ≤ (#v[100, 219, 100, 100, 100] : Vector Nat 5)[(1 : Fin 5)]) := by
  decide +kernel

theorem test_hyp_StandingAndFlash : onAir.ports[(3 : PortNo)].quiet = true ∧
    (sendStanding 3 .holding .presenter onAir).mail.standing[(3 : PortNo)] =
      [{ req := false, body := (.holding, .presenter) }] ∧
    (sendFlash true onAir).mail.flash[(3 : PortNo)] = [{ req := false, body := true }] ∧
    (sendFlash false onAir).mail.flash[(0 : PortNo)] = [{ req := false, body := false }] := by decide +kernel

theorem test_hyp_PortStateRequests : ∀ k ∈ [(0x48 : Byte), 0x49, 0x4A], ∀ b ∈ [(1 : Byte), 3, 4],
    ∀ st ∈ [PortState.attached, .enabled], Serving (asking k [b] (listening .wheel st .idle)) k [b] := by
  have h : ([(0x48 : Byte), 0x49, 0x4A].all (fun k => [(1 : Byte), 3, 4].all (fun b =>
      [PortState.attached, .enabled].all (fun st => ready k (listening .wheel st .idle) [b])))) = true := by
    decide +kernel
  intro k hk b hb st hs
  exact serves (List.all_eq_true.1 (List.all_eq_true.1 (List.all_eq_true.1 h k hk) b hb) st hs)

theorem test_hyp_PortSettings :
    (∀ b ∈ [[4, 0, 0, 10, 0, 0], [1, 2, 0, 10, 0, 0], [1, 0, 0, 9, 0, 0], [1, 0, 3, 0xE9, 0, 0], [1, 0, 0, 10, 65, 0],
        [1, 0, 0, 10, 0, 4], [1, 1, 3, 0xE8, 64, 0], [1, 0, 0, 10, 0, 1, 1, 64, 1, 0], [0, 0, 0, 10, 0, 1, 0, 1, 0, 1]],
      Serving (asking 0x4B b (listening .wheel .enabled .idle)) 0x4B b) ∧
    (∀ b ∈ [[1, 0, 0, 10, 0, 2, 1, 3, 0xFF, 64], [1, 0, 0, 10, 0, 1, 0, 1, 0, 1]],
      Serving (asking 0x4B b (listening .strip .enabled .idle)) 0x4B b) ∧
    Serving (asking 0x4B [1, 0, 0, 10, 0, 3, 64, 64] (listening .pedal .enabled .idle)) 0x4B [1, 0, 0, 10, 0, 3, 64, 64] ∧
    (∀ b ∈ [[4, 0, 0, 0, 0, 0], [0, 2, 0, 0, 0, 0], [0, 1, 1, 0, 0, 0], [0, 1, 0, 0, 1, 0], [3, 0, 0, 0, 0, 0],
        [3, 1, 0, 255, 0, 255]], Serving (asking 0x4C b onAir) 0x4C b) ∧
    (∀ b ∈ [[4, 0], [0, 8], [3, 7], [3, 0]], Serving (asking 0x4D b onAir) 0x4D b) ∧
    onAir.ports[(0 : PortNo)].kind = none :=
  ⟨servesAll (by decide +kernel), servesAll (by decide +kernel), serves (by decide +kernel), servesAll (by decide +kernel),
    servesAll (by decide +kernel), rfl⟩

/-- Out-of-range values of the three kinds' records. -/
theorem test_hyp_PortRecords :
    (∀ b ∈ [[1, 0, 0, 10, 0, 1, 2, 1, 0, 1], [1, 0, 0, 10, 0, 1, 0, 0, 0, 1], [1, 0, 0, 10, 0, 1, 0, 65, 0, 1],
        [1, 0, 0, 10, 0, 1, 0, 1, 0, 0], [1, 0, 0, 10, 0, 1, 0, 1, 1, 1], [1, 0, 0, 10, 0, 2, 2, 0, 16, 1],
        [1, 0, 0, 10, 0, 2, 0, 0, 15, 1], [1, 0, 0, 10, 0, 2, 0, 4, 0, 1], [1, 0, 0, 10, 0, 2, 0, 0, 16, 65],
        [1, 0, 0, 10, 0, 3, 65, 1], [1, 0, 0, 10, 0, 3, 0, 0], [1, 0, 0, 10, 0, 3, 0, 65], [1, 0, 0, 10, 0, 3, 0, 1]],
      Serving (asking 0x4B b (listening .wheel .enabled .idle)) 0x4B b) ∧
    (∀ b ∈ [[0, 0, 0, 10, 0, 2, 0, 0, 16, 1], [0, 0, 0, 10, 0, 3, 0, 1]], Serving (asking 0x4B b onAir) 0x4B b) ∧
    onAir.ports[(0 : PortNo)].kind = none :=
  ⟨servesAll (by decide +kernel), servesAll (by decide +kernel), rfl⟩

/-- Port 1 has a flag set and has answered a Query Port whose clearing is still to come. -/
def owing (set : Byte) : State :=
  ported (fun q => { q with connectChange := true, faultChange := true, ackDue := some set }) 0

theorem test_hyp_PortQueried : (owing 1).ports[(1 : PortNo)].ackDue ≠ none ∧ (owing 1).canTake = false ∧
    (asking 0x4D [1, 1] (owing 1)).canTake = false ∧
    Serving (asking 0x4D [1, 7] (ported id 0)) 0x4D [1, 7] :=
  ⟨by decide +kernel, by decide +kernel, by decide +kernel, serves (by decide +kernel)⟩

/-- The clearing removes a flag set after the sampling; the sampling leaves it to come, and no request is taken before it. -/
theorem test_queryPort :
    after (fun t => (t.ports[(1 : PortNo)].connectChange, t.ports[(1 : PortNo)].faultChange, t.ports[(1 : PortNo)].ackDue))
      (exec .queryPort (owing 1)) = some (false, true, none) ∧
    after (fun t => (t.ports[(1 : PortNo)].ackDue, t.canTake))
      (exec .queryPort (asking 0x4D [1, 7] (ported id 0))) = some (some 7, false) ∧
    nextEvent (owing 1) = some .queryPort := by decide +kernel

/-! ### Hypotheses met: the Frame Clock and the Head Links -/

/-- The clock in a mode and a lock state. -/
def clocked (m : RefMode) (l : LockState) (c : FrameClock → FrameClock) (now : Nat) : State :=
  { onAir with now := now, clock := c { onAir.clock with mode := m, lock := l } }

theorem test_hyp_FrameStarts :
    (clocked .free .free id 20000).clock.mode = .free ∧
    (let s := clocked .lock .locked id 10000
     s.clock.mode = .lock ∧ s.clock.lock = .locked ∧ s.clock.lastStart + s.clock.period / 2 ≤ s.now) ∧
    (let s := clocked .lock .locked (fun c => { c with flywheel := 2 }) 25000
     s.clock.lock = .locked ∧ s.clock.lastStart + s.clock.period + s.clock.period / 4 ≤ s.now ∧ s.clock.flywheel = 2) ∧
    (∀ l ∈ [LockState.hunting, .lost], (clocked .lock l id 0).clock.mode = .lock ∧ (clocked .lock l id 0).clock.lock = l ∧
      (clocked .lock l id 0).clock.lastPulse = none) ∧
    (∀ now ∈ [17500, 22500, 22501],
      let s := clocked .lock .lost (fun c => { c with lastPulse := some 0, goodRun := 1 }) now
      s.clock.lastPulse = some 0 ∧ (decide (s.clock.period - s.clock.period / 8 ≤ s.now - 0 ∧
        s.now - 0 ≤ s.clock.period + s.clock.period / 8) = decide (now ≠ 22501))) := by decide +kernel

theorem test_hyp_ClockRequests :
    (∀ b ∈ [[0x1F, 0x3F, 0], [0xA4, 0x11, 0], [0x1F, 0x40, 0x80], [0xA4, 0x10, 0x7F], [0x4E, 0x20, 0]],
      Serving (asking 0x58 b (clocked .lock .locked id 0)) 0x58 b) ∧
    u16 [0x1F, 0x3F, 0] 0 = 7999 ∧ u16 [0xA4, 0x10, 0x7F] 0 = 42000 ∧ u16 [0x4E, 0x20, 0] 0 = 20000 ∧
    (∀ b ∈ [[0], [1], [2]], Serving (asking 0x59 b onAir) 0x59 b) ∧
    (∀ b ∈ [[0], [1]], Serving (asking 0x59 b (clocked .lock .locked id 0)) 0x59 b) :=
  ⟨servesAll (by decide +kernel), by decide +kernel, by decide +kernel, by decide +kernel, servesAll (by decide +kernel),
    servesAll (by decide +kernel)⟩

/-- Head 0 in a link state with a list. -/
def linked (up : Bool) (q : List HeadFrame) (s : State) : State :=
  s.withHead 0 { s.heads[(0 : HeadNo)] with up := up, queue := q }

def position : Publish :=
  { frame := 7, live := some ⟨0, 9⟩, liveAt := some (0, 0), preview := none, previewAt := none, motion := .running }

theorem test_hyp_ViewBuild :
    (sendPublish position (linked true [] onAir)).mail.publish[(0 : HeadNo)] = [{ req := false, body := position }] ∧
    (linked true [] onAir).heads[(0 : HeadNo)].up = true ∧
    (linked true [] onAir).heads[(0 : HeadNo)].settings.enable = true ∧
    (linked true [] onAir).heads[(0 : HeadNo)].settings.source = .live ∧
    (linked true [] onAir).heads[(0 : HeadNo)].settings.readingRow < 12 ∧
    (onAir.script.reach 0).bind (fun r => r.fore.head?) = some 1 ∧ (onAir.script.locate 0).isSome = true ∧
    onAir.heads[(3 : HeadNo)].up = false := by decide +kernel

/-- A PREVIEW view, of a READY story and of the open load; a VOID source; a source block that is in no story any more. -/
theorem test_hyp_ViewBuild_sources :
    let preview : State := (linked true [] onAir).withHead 0 { (linked true [] onAir).heads[(0 : HeadNo)] with
      settings := { (linked true [] onAir).heads[(0 : HeadNo)].settings with source := .preview } }
    preview.heads[(0 : HeadNo)].settings.source = .preview ∧ preview.heads[(0 : HeadNo)].settings.enable = true ∧
    preview.script.locate 4 = some (1, 1) ∧ preview.script.stories[(1 : Slot)].state = .ready ∧
    preview.script.locate 5 = some (2, 0) ∧ preview.script.stories[(2 : Slot)].state ≠ .ready ∧
    position.preview = none ∧ onAir.script.reach 10 = none := by decide +kernel

/-- The newest view of a LIVE head of 4 rows at reading row 1, the walk forward ending at the gap. -/
theorem test_viewBuild : after (fun t => (t.heads[(0 : HeadNo)].history.map (·.table), t.heads[(0 : HeadNo)].queue.length))
    (exec (.viewBuild 0) (sendPublish { position with live := some ⟨4, 9⟩ } (onAir.withHead 0 { onAir.heads[(0 : HeadNo)] with
      up := true, settings := { onAir.heads[(0 : HeadNo)].settings with rows := 4, readingRow := 1 } }))) =
    some ([[.line 3 0, .line 4 0, .gap, .blank, .blank]], 1) := by decide +kernel

def reply : HeadFrame := .reply 7 0 .blank

/-- A view of two rows in the history, with an entry of each form. -/
def viewed : State :=
  let v : View := { frame := 7, source := .live, slug := [], offset := 0, rows := 4, readingRow := 0, stopped := false
                    cue := false, mirror := false, holderClass := none
                    table := [.line 0 0, .line 8 0, .line 10 0, .gap, .blank] }
  onAir.withHead 0 { onAir.heads[(0 : HeadNo)] with up := true, history := [v] }

theorem test_hyp_RendererFrames : onAir.heads[(0 : HeadNo)].rx.state = .hunting ∧
    onAir.heads[(0 : HeadNo)].up = false ∧
    16 ≤ ((linked true (List.replicate 16 reply) onAir).heads[(0 : HeadNo)].queue.filter (fun f => !f.isView)).length ∧
    ((linked true (List.replicate 15 reply) onAir).heads[(0 : HeadNo)].queue.filter (fun f => !f.isView)).length < 16 ∧
    (viewed.heads[(0 : HeadNo)].history.find? (fun w => w.frame = 7)).map (·.table.length) = some 5 ∧
    (viewed.heads[(0 : HeadNo)].history.find? (fun w => w.frame = 8)) = none ∧
    viewed.store.read 0 = { gen := 0, record := some (line none) } ∧ (viewed.store.read 8).gen ≠ 0 ∧
    (viewed.store.read 10).record = none ∧ (0 : Byte) ≠ crc8 [byte 1, 0x01] ∧ (0x03 : Byte) ≠ 0x02 := by decide +kernel

/-- A FETCH at the moment DOWN is due is answered and leaves the silence time as it is; DOWN then withdraws the reply. -/
theorem test_fetch_atSilence :
    let s := { viewed with now := 300000 }
    after (fun t => (t.heads[(0 : HeadNo)].silentSince, t.heads[(0 : HeadNo)].queue.length))
      (exec (.fetch 0 (goodChars (linkFrame 0x02 [0, 7, 3]))) s) = some (0, 1) ∧
    after (fun t => (t.heads[(0 : HeadNo)].up, t.heads[(0 : HeadNo)].queue))
      (exec (.headSilenceTimeout 0) (s.withHead 0 { s.heads[(0 : HeadNo)] with queue := [reply] })) = some (false, []) := by
  decide +kernel

theorem test_hyp_HeadEvents :
    (sendCueFlag true onAir).mail.cueFlag[(0 : HeadNo)] = [{ req := false, body := true }] ∧
    (sendCueFlag false onAir).mail.cueFlag[(3 : HeadNo)] = [{ req := false, body := false }] := by decide +kernel

theorem test_hyp_HeadRequests :
    (∀ b ∈ [[4, 0, 0, 0, 4, 0], [0, 2, 0, 0, 4, 0], [0, 0, 2, 0, 4, 0], [0, 0, 0, 2, 4, 0], [0, 0, 0, 0, 3, 0],
      [0, 0, 0, 0, 25, 0], [0, 0, 0, 0, 4, 4], [3, 1, 1, 1, 24, 23], [0, 0, 0, 0, 4, 3]],
      Serving (asking 0x60 b onAir) 0x60 b) ∧
    (∀ b ∈ [[4], [3], [0]], Serving (asking 0x61 b onAir) 0x61 b) :=
  ⟨servesAll (by decide +kernel), servesAll (by decide +kernel)⟩

/-! ### One step at a time -/

/-- The reply goes out at once, the transmitter sending nothing. -/
theorem test_identify : after (fun t => (t.link.sending.map (·.body), t.link.replies, t.link.requests)) (exec .identify
    (asking 0x70 [] onAir)) = some (some [0, 0x36, 0x20, 2, 0x20, 0, 64, 4, 4, 6, 0, 0x1F, 0xFF, 0, 0, 0], [], []) := by
  decide +kernel

/-- A Halt on a transmitter that waits: Scroll Halted goes out, the Done behind it. -/
theorem test_halt : after (fun t => (t.link.sending.map (·.kind), t.link.replies.map (·.body), t.link.notices))
    (exec .halt (asking 0x32 [] (moving .running))) = some (some 0xE0, [[0]], []) := by decide +kernel

theorem test_insertLine : after (fun t => (t.script.stories[(0 : Slot)].lines, t.store.pool,
    t.mail.engineReports.map (·.body))) (exec .insertLine (asking 0x28 [0, 0, 1, 0, 0, 0, 0, 0] onAir)) =
    some ([0, 10, 1, 2], [11], [.insert 0 1 10]) := by decide +kernel

theorem test_deleteLines : after (fun t => (t.script.stories[(0 : Slot)].lines, t.store.pool, (t.store.read 1).gen,
    (t.store.read 1).record)) (exec .deleteLines (asking 0x2A [0, 0, 1, 2] onAir)) =
    some ([0], [10, 11, 1, 2], 1, none) := by decide +kernel

/-- A generation of 255 is followed by 0. -/
theorem test_replaceLine : after (fun t => (t.store.read 8).gen)
    (exec .replaceLine (asking 0x29 [5, 0, 0, 0, 0, 0, 0, 0] onAir)) = some 0 := by decide +kernel

theorem test_frameAdvance : after (fun t => (t.engine.live, t.engine.velocity, t.engine.motion))
    (exec .frameAdvance (running ⟨0, 200⟩ 100 .running)) = some (some ⟨1, 44⟩, 100, .running) := by decide +kernel

/-- The scroll meets the gap of the open load. -/
theorem test_frameAdvance_gap : after (fun t => (t.engine.live, t.engine.haltCause, t.link.sending.map (·.kind)))
    (exec .frameAdvance (running ⟨4, 200⟩ 100 .running)) = some (some ⟨4, 255⟩, .gap, some 0xE0) := by decide +kernel

theorem test_frameAdvance_pause : after (fun t =>
    (t.engine.live, t.engine.haltCause, t.link.sending.map (·.kind), t.link.notices)) (exec .frameAdvance towardPause) =
    some (some ⟨3, 0⟩, .marker, some 0xE3, [.scrollHalted]) := by decide +kernel

theorem test_claim : after (fun t => (t.arbiter.holder, t.arbiter.joined, t.arbiter.driveStates.toList))
    (exec (.claim 0) (sent 0 .claim (driven (some (.port 3)) []))) =
    some (some (.port 0), [], [.holding, .idle, .idle, .idle]) := by decide +kernel

/-- The holder's pedal at level 28: 16 over the dead band, times 8, over 16. -/
theorem test_pedal : after (fun t => t.mail.toArbiter[(1 : PortNo)].map (·.body))
    (exec (.dataReport 1 (goodChars (portFrame 0x13 [28, 0]))) (listening .pedal .enabled .holding)) =
    some [.claim, .setTarget 8] := by decide +kernel

theorem test_hello : after (fun t => (t.ports[(1 : PortNo)].state, t.ports[(1 : PortNo)].kind))
    (exec (.hello 1 (goodChars (portFrame 0x10 [2]))) (listening .wheel .identifying .idle)) =
    some (.enabled, some .strip) := by decide +kernel

/-- The set goes out in the notice, which empties it. -/
theorem test_timerExpiry : after (fun t => (t.link.sending.map (·.body), t.cues.expired, t.cues.expiring,
    t.mail.engineStops.length)) (exec (.timerExpiry 4) (expiring 4)) = some (some [0x10], 0, [5], 1) := by decide +kernel

theorem test_fetch : after (fun t => t.heads[(0 : HeadNo)].queue)
    (exec (.fetch 0 (goodChars (linkFrame 0x02 [0, 7, 1]))) viewed) = some [.reply 7 1 .changed] := by decide +kernel

theorem test_flywheel : after (fun t => (t.clock.lock, t.clock.counter, t.link.sending.map (·.kind)))
    (exec .flywheelFrame (clocked .lock .locked (fun c => { c with flywheel := 2 }) 25000)) =
    some (.lost, 1, some 0xE9) := by decide +kernel

/-- A step takes the front of the queue; with an empty queue the next event of the part's own runs. -/
theorem test_step : after (·.pending) (step { onAir with pending := [.run, .stop] }) = some [.stop] ∧
    after (·.clock.counter) (step { State.reset with now := 20000 }) = some 1 ∧
    after (·.now) (step State.reset) = some 1 := by decide +kernel

/-! ### Several steps in one command (R183; logs 10 and 41) -/

/-- Three faults on a transmitter that waits: the first goes out, the second lists the kind, the third finds it listed. -/
theorem test_linkFaults : after (fun t => (t.link.sending.map (·.body), t.link.notices, t.link.lastError))
    (exec (.receiveFault (goodChars [0xA5, 0, 0xA5, 201, 0xA5, 0])) { onAir with now := 9 }) =
    some (some [4, 0, 0], [.linkFault], some (.length, 0)) := by decide +kernel

/-- Timers 1 and 4 are due to expire, and a frame start waits. -/
def bothExpiring : State :=
  let s := { onAir with mail := { onAir.mail with cueFrames := [{ req := false, body := 7 }] } }
  s.withCues { s.cues with expiring := [1, 4] }

/-- The first expiry goes out with its set, the second lists Timer Expired anew. -/
theorem test_expiries : after (fun t => (t.link.sending.map (·.body), t.link.notices, t.cues.expired, t.cues.expiring))
    (exec .cueFrameStart bothExpiring) = some (some [0x02], [.timerExpired], 0x10, []) := by decide +kernel

/-- An ENABLED port is due its fault SILENT when the presence is lost. -/
def faultDue : State := ported (fun q => { q with state := .enabled, supply := true, kind := some .wheel, silence := 5 })
    20000

/-- The fault's Port Changed goes out, showing FAULTED, and the loss of presence lists the kind anew. -/
theorem test_faultBeforeLoss : after (fun t =>
      (t.link.sending.map (fun x => (x.kind, x.body[4]?)), t.link.notices, t.ports[(1 : PortNo)].state))
    (exec (.presenceLost 1) faultDue) = some (some (0xE2, some 4), [.portChanged], .detached) := by decide +kernel

/-- The report of a target's story, and a frame start behind it. -/
def reportThenFrame : State :=
  let s := changed (.ineligible 1 1) (onAir.withEngine { engine with
    motion := .stepping, goal := some { glide := false, block := 4, framesLeft := 0 } })
  { s with mail := { s.mail with engineFrames := [{ req := false, body := 7 }] } }

/-- The hypotheses of each clause. -/
theorem test_hyp_StepsInTurn :
    (onAir.link.sending = none ∧ onAir.link.replies = [] ∧ onAir.link.notices = []) ∧ goodChars [0xA5, 0] ≠ [] ∧
    faultDue.link.notices = [] ∧ faultDue.link.replies = [] ∧ faultDue.ports[(1 : PortNo)].silenceDue = true ∧
    bothExpiring.link.notices = [] ∧ bothExpiring.cues.expiring.head? = some 1 ∧
    bothExpiring.mail.cueFrames = [{ req := false, body := 7 }] ∧
    reportThenFrame.link.notices = [] ∧ reportThenFrame.mail.engineReports ≠ [] ∧
    reportThenFrame.mail.engineFrames ≠ [] := by decide +kernel

theorem test_bothExpiring_cues : CueInv bothExpiring.cues where
  depth := by decide +kernel
  reload := by decide +kernel
  chain := by decide +kernel
  expired := by decide +kernel
  expiring := by decide +kernel

end Sys2Proof.Machine.Tests
end

namespace Sys2Proof.Machine

/-! ### What the owner of each request changes -/

section owners
variable {ps : List Part} {s : State}

/-- Only an answered request changes anything: a field out of range is refused. -/
theorem same_withSlot {n : Nat} {f : Slot → Answer} (h : ∀ k, Same ps s (f k).state) :
    Same ps s (withSlot n s f).state := by
  unfold withSlot
  split
  · exact h _
  · exact Same.rfl

theorem same_withFour {n : Nat} {f : Fin 4 → Answer} (h : ∀ p, Same ps s (f p).state) :
    Same ps s (withFour n s f).state := by
  unfold withFour
  split
  · exact h _
  · exact Same.rfl

theorem same_withTimer {n : Nat} {f : TimerNo → Answer} (h : ∀ k, Same ps s (f k).state) :
    Same ps s (withTimer n s f).state := by
  unfold withTimer
  split
  · exact h _
  · exact Same.rfl

theorem same_done {r : List Byte} {t : State} (h : Same ps s t) : Same ps s (done r t).state := h

/-- A choice between two answers leaves alone what both do. -/
theorem same_iteAnswer {c : Prop} [Decidable c] {a b : Answer} (ha : Same ps s a.state) (hb : Same ps s b.state) :
    Same ps s (if c then a else b).state := by
  split
  · exact ha
  · exact hb

theorem same_iteState {c : Prop} [Decidable c] {t u : State} (ht : Same ps s t) (hu : Same ps s u) :
    Same ps s (if c then t else u) := by
  split
  · exact ht
  · exact hu

/-- A change of the Link Controller that leaves the frame being sent and the notice list. -/
theorem same_withLinkOnly (x : LinkController) (hs : x.sending = s.link.sending := by rfl)
    (hn : x.notices = s.link.notices := by rfl) : Same [.link] s (s.withLink x) := by
  constructor <;> simp [hs, hn]

variable (b : List Byte)

/-! Script Table (R24 to R38) -/

theorem same_openStory : Same [.script] s (openStory b s).state := by
  refine same_withSlot fun k => ?_
  dsimp only
  split
  · exact Same.rfl
  · exact same_iteAnswer Same.rfl (same_iteAnswer Same.rfl (same_withScript _))

theorem same_appendLine : Same [.store, .script, .notices] s (appendLine b s).state := by
  unfold appendLine
  split
  · exact Same.rfl
  · split
    · exact Same.rfl
    · refine same_iteAnswer Same.rfl ?_
      split
      · exact Same.rfl
      · next n u hu => exact .after (same_withScript _) (by simp) ((same_takeBlock hu).mono (by simp))

theorem same_closeCommit : Same [.script, .mail] s (closeCommit b s).state := by
  refine same_iteAnswer Same.rfl ?_
  split
  · exact Same.rfl
  · exact same_changeScript _ _ _

theorem same_closeAbandon : Same [.store, .script, .mail] s (closeAbandon b s).state := by
  unfold closeAbandon
  split
  · exact Same.rfl
  · exact .after (same_changeScript _ _ _) (by simp) ((same_returnRun _).mono (by simp))

theorem same_placeEntry : Same [.script, .mail] s (placeEntry b s).state :=
  same_withSlot fun _ => same_iteAnswer Same.rfl (same_iteAnswer Same.rfl (same_iteAnswer Same.rfl
    (same_changeScript _ _ _)))

theorem same_moveEntry : Same [.script, .mail] s (moveEntry b s).state := by
  unfold moveEntry
  dsimp only
  split
  · exact Same.rfl
  · exact same_iteAnswer Same.rfl (same_iteAnswer Same.rfl (same_changeScript _ _ _))

theorem same_removeEntry : Same [.script, .mail] s (removeEntry b s).state := by
  unfold removeEntry
  dsimp only
  split
  · exact Same.rfl
  · exact same_changeScript _ _ _

theorem same_floatEntry : Same [.script, .mail] s (floatEntry b s).state := by
  unfold floatEntry
  dsimp only
  split
  · exact same_iteAnswer Same.rfl (same_changeScript _ _ _)
  · exact Same.rfl

theorem same_freeStory : Same [.store, .script, .mail] s (freeStory b s).state := by
  refine same_withSlot fun k => ?_
  dsimp only
  split
  · exact Same.rfl
  · exact Same.rfl
  · exact same_iteAnswer Same.rfl (.after (same_changeScript _ _ _) (by simp) ((same_returnRun _).mono (by simp)))

theorem same_setStory : Same [.script, .engine, .mail, .notices] s (setStory b s).state := by
  refine same_withSlot fun k => ?_
  dsimp only
  split
  · exact Same.rfl
  · refine same_iteAnswer Same.rfl ?_
    split
    · exact Same.rfl
    · exact Same.rfl
    · exact .after (same_liveSlotCheck _) (by simp) ((same_changeScript _ _ _).mono (by simp))

theorem same_queryStory : Same [] s (queryStory b s).state := same_withSlot fun _ => Same.rfl

/-! Editing on air (R43 to R62) -/

/-- An edit is refused, leaving at most a fault record, or completed. -/
theorem same_editChecks {e : EditKind} {k : Slot} {i : Nat} {f : State → Answer} (hp : [.script, .notices] ⊆ ps)
    (h : Same ps s (f s).state) : Same ps s (editChecks e k i s f).state := by
  unfold editChecks
  dsimp only
  split
  · exact Same.rfl
  · exact Same.rfl
  · exact same_iteAnswer h ((same_offerFault _).mono hp)

theorem same_insertLine : Same [.store, .script, .mail, .notices] s (insertLine b s).state := by
  refine same_withSlot fun k => ?_
  dsimp only
  split
  · exact Same.rfl
  · refine same_iteAnswer Same.rfl (same_editChecks (by simp) ?_)
    unfold completeInsert
    split
    · exact Same.rfl
    · next n u hu =>
      exact .after (same_changeScript _ _ _) (by simp) (.after (same_noteEdit _ _ _ _) (by simp)
        ((same_takeBlock hu).mono (by simp)))

theorem same_replaceLine : Same [.store, .script, .mail, .notices] s (replaceLine b s).state := by
  refine same_withSlot fun k => ?_
  dsimp only
  split
  · exact Same.rfl
  · exact same_iteAnswer Same.rfl (same_editChecks (by simp) (.after (same_sendRewritten _ _) (by simp)
      (.after (same_noteEdit _ _ _ _) (by simp) ((same_rewriteBlock _ _).mono (by simp)))))

theorem same_deleteLines : Same [.store, .script, .mail, .notices] s (deleteLines b s).state :=
  same_withSlot fun _ => same_iteAnswer Same.rfl (same_editChecks (by simp) (.after (same_changeScript _ _ _) (by simp)
    (.after (same_noteEdit _ _ _ _) (by simp) ((same_returnRun _).mono (by simp)))))

theorem same_readLine : Same [] s (readLine b s).state := by
  refine same_withSlot fun k => ?_
  dsimp only
  split
  · split <;> exact Same.rfl
  · exact Same.rfl

/-! Scroll Engine (R67, R70, R78 to R84) -/

theorem same_runScroll : Same [.engine] s (runScroll b s).state := by
  unfold runScroll
  split
  · exact same_iteAnswer Same.rfl (same_withEngine _)
  · exact Same.rfl
  · exact same_withEngine _
  · exact Same.rfl
  · exact Same.rfl

theorem same_stepScroll : Same [.engine] s (stepScroll b s).state := by
  refine same_iteAnswer Same.rfl (same_iteAnswer Same.rfl ?_)
  show Same [.engine] s (beginStep _ s)
  unfold beginStep
  split
  · exact same_withEngine _
  · exact Same.rfl

theorem same_goToRequest : Same [.engine, .mail, .notices] s (goToRequest b s).state := by
  refine same_withSlot fun k => same_iteAnswer Same.rfl (same_iteAnswer Same.rfl ?_)
  split
  · split
    · exact same_iteAnswer Same.rfl (same_goTo _ _ _)
    · exact Same.rfl
  · exact Same.rfl

theorem same_setSpeed : Same [.engine] s (setSpeed b s).state :=
  same_iteAnswer Same.rfl (same_iteAnswer Same.rfl (same_withEngine _))

theorem same_setMotion : Same [.engine] s (setMotion b s).state := by
  unfold setMotion
  dsimp only
  split
  · exact same_iteAnswer (same_withEngine _) Same.rfl
  · exact Same.rfl

theorem same_setPreview : Same [.engine] s (setPreview b s).state := by
  refine same_iteAnswer (same_withEngine _) (same_withSlot fun k => ?_)
  dsimp only
  split
  · exact Same.rfl
  · exact same_iteAnswer Same.rfl Same.rfl
  · split
    · exact same_withEngine _
    · exact Same.rfl

/-! Drive Arbiter (R129 to R133) -/

theorem same_arbiterEvent (f : Arbiter → Arbiter) : Same [.arbiter, .mail, .notices] s (arbiterEvent f s) :=
  same_putArbiter _

theorem same_setDriveMode : Same [.arbiter, .mail, .notices] s (setDriveMode b s).state := by
  unfold setDriveMode
  split
  · exact same_iteState Same.rfl (same_arbiterEvent _)
  · exact Same.rfl

theorem same_setPortClass : Same [.arbiter, .mail, .notices] s (setPortClass b s).state := by
  refine same_withFour fun p => ?_
  split
  · exact same_iteState Same.rfl (same_arbiterEvent _)
  · exact Same.rfl

theorem same_pinTo (x : Option PortNo) : Same [.arbiter, .mail, .notices] s (pinTo x s) :=
  same_iteState Same.rfl (same_arbiterEvent _)

theorem same_pinDrive : Same [.arbiter, .mail, .notices] s (pinDrive b s).state :=
  same_iteAnswer (same_pinTo _) (same_withFour fun _ => same_pinTo _)

theorem same_claimDrive : Same [.arbiter, .mail, .notices] s (claimDrive b s).state :=
  same_iteState Same.rfl (same_arbiterEvent _)

theorem same_releaseDrive : Same [.arbiter, .mail, .notices] s (releaseDrive b s).state :=
  same_iteAnswer (same_done (same_arbiterEvent _)) Same.rfl

/-! Control Ports (R102, R103, R114 to R116) -/

theorem same_enablePort : Same [.ports, .mail] s (enablePort b s).state :=
  same_withFour fun _ => same_iteAnswer (same_enterEnabled _) Same.rfl

theorem same_disablePort : Same [.ports, .mail] s (disablePort b s).state :=
  same_withFour fun _ => same_iteAnswer (.after (same_sendArbiter _ _) (by simp) ((same_updatePort _ _).mono (by simp)))
    Same.rfl

theorem same_resetPort : Same [.ports, .mail, .notices] s (resetPort b s).state := by
  have hd (p : PortNo) (f : Port → Port) : Same [.ports, .mail, .notices] s (updatePort p f s) :=
    (same_updatePort _ _).mono (by simp)
  exact same_withFour fun p => .after (same_leaveEnabled _ _) (by simp)
    (same_iteState (hd _ _) (.after (same_setChange _ _) (by simp) (hd _ _)))

theorem same_setPort : Same [.ports] s (setPort b s).state := by
  refine same_withFour fun p => ?_
  dsimp only
  split
  · exact same_done (same_updatePort _ _)
  · split
    · exact Same.rfl
    · exact same_iteAnswer (same_done (same_updatePort _ _)) Same.rfl
  · exact Same.rfl

theorem same_setLamp : Same [.ports] s (setLamp b s).state := by
  refine same_withFour fun p => ?_
  dsimp only
  split
  · exact same_done (same_updatePort _ _)
  · exact same_iteAnswer (same_done (same_updatePort _ _)) Same.rfl
  · exact Same.rfl

theorem same_queryPort : Same [.ports] s (queryPort b s).state :=
  same_withFour fun _ => same_iteAnswer Same.rfl (same_done (same_updatePort _ _))

theorem same_finishAcks : Same [.ports] s (finishAcks s) := by constructor <;> simp [finishAcks]

/-! Cue Monitor (R146 to R149) -/

theorem same_skipCue : Same [.cues] s (skipCue b s).state := by
  unfold skipCue
  dsimp only
  split
  · exact Same.rfl
  · exact same_iteAnswer Same.rfl (same_setQueue _)

theorem same_setTimer : Same [.cues] s (setTimer b s).state := by
  refine same_withTimer fun n => ?_
  dsimp only
  split
  · exact same_iteAnswer Same.rfl (same_withCues _)
  · exact Same.rfl

theorem same_startTimerRequest : Same [.cues] s (startTimerRequest b s).state :=
  same_withTimer fun _ => same_withCues _

theorem same_stopTimerRequest : Same [.cues] s (stopTimerRequest b s).state :=
  same_withTimer fun _ => same_withCues _

/-! Frame Clock, Head Links and Link Controller (R157, R158, R167, R184, R186) -/

theorem same_setFrame : Same [.clock] s (setFrame b s).state := same_iteAnswer (same_withClock _) Same.rfl

theorem same_setReference : Same [.clock] s (setReference b s).state := by
  unfold setReference
  split
  · exact same_withClock _
  · exact Same.rfl

theorem same_setHead : Same [.heads] s (setHead b s).state := by
  refine same_withFour fun h => ?_
  dsimp only
  split
  · exact same_iteAnswer (same_done (same_updateHead _ _)) Same.rfl
  · exact Same.rfl

theorem same_queryHead : Same [] s (queryHead b s).state := same_withFour fun _ => Same.rfl

theorem same_setNotices : Same [.link, .store, .notices] s (setNotices b s).state := by
  have hm (m : Half) : Same [.link, .store, .notices] s (s.withLink (s.link.setMask m)) :=
    .mono (ps := [.link, .notices]) (same_withLink _ rfl fun h => (List.mem_filter.1 h).1) (by simp)
  exact same_iteAnswer Same.rfl (same_done (.after same_storeLowTest (by simp) (.after same_rearmTest (by simp)
    (.after (same_withStore _) (by simp) (hm _)))))

theorem same_resetRequest : Same [.link] s (resetRequest b s).state := by
  unfold resetRequest
  split
  · exact same_withLinkOnly _
  · exact Same.rfl

end owners
end Sys2Proof.Machine

namespace Sys2Proof.Machine

/-! ### The Text Store and the Script Table left alone

No premise on the transmitter is needed here: what it begins to send touches neither. -/

/-- The Text Store and the Script Table are as they were. -/
structure SameText (s t : State) : Prop where
  store : t.store = s.store
  script : t.script = s.script

section sameText
variable {ps qs : List Part} {s t u : State}

theorem SameText.trans (h : SameText s t) (k : SameText t u) : SameText s u :=
  ⟨k.store.trans h.store, k.script.trans h.script⟩

theorem Same.text (h : Same ps s t) (hs : .store ∉ ps := by decide) (hk : .script ∉ ps := by decide) : SameText s t :=
  ⟨h.store hs, h.script hk⟩

theorem SameText.rfl : SameText s s := (Same.rfl (ps := [])).text

theorem SameText.ite {c : Prop} [Decidable c] (ht : SameText s t) (hu : SameText s u) :
    SameText s (if c then t else u) := by
  split
  · exact ht
  · exact hu

theorem SameText.foldl {β : Type} {g : State → β → State} (h : ∀ s b, SameText s (g s b)) :
    ∀ (l : List β) (s : State), SameText s (l.foldl g s)
  | [], _ => .rfl
  | b :: l, s => (h s b).trans (SameText.foldl h l _)

theorem sameText_withCause (b : Bool) : SameText s (s.withCause b) := (same_withCause b).text

theorem sameText_sendIfIdle : SameText s (sendIfIdle s) := ⟨by simp, by simp⟩

theorem sameText_transmitNext : SameText s (transmitNext s) := same_transmitNext.text

/-! What brings an event about: the event's own work is all that can touch either. -/

theorem sameText_event {req : Bool} {f : State → State} : SameText (f (s.withCause req)) (event req f s) :=
  (sameText_withCause false).trans sameText_sendIfIdle

theorem event_text {req : Bool} {f : State → State} (h : ∀ u, SameText u (f u)) : SameText s (event req f s) :=
  ((sameText_withCause req).trans (h _)).trans sameText_event

theorem takeHead_text {α β : Type} {c : List (Msg α)} {want : α → Option β} {drop : List (Msg α) → State → State}
    {f : β → State → State} (hd : ∀ r u, SameText u (drop r u)) (hf : ∀ x u, SameText u (f x u)) :
    SameText s (takeHead c want drop f s) := by
  unfold takeHead
  split
  · split
    · exact (hd _ _).trans (event_text (hf _))
    · exact .rfl
  · exact .rfl

/-- A request leaves both as they were, or as its owner makes them. -/
theorem runRequestIf_text (meant : Request → Bool) (owner : List Byte → State → Answer) (s : State) :
    SameText s (runRequestIf meant owner s) ∨
    ∃ r rest, s.link.requests = r :: rest ∧ meant r = true ∧ bodyFits r = true ∧
      SameText (owner r.body (s.withCause true)).state (runRequestIf meant owner s) := by
  unfold runRequestIf
  split
  · exact .inl .rfl
  · next r rest hr =>
    split
    · next hm =>
      rw [Bool.and_eq_true] at hm
      by_cases hf : bodyFits r = true
      · refine .inr ⟨r, rest, hr, hm.1, hf, ?_⟩
        simp only [hf, if_true]
        refine SameText.trans ?_ sameText_event
        exact (same_withLinkOnly _).text
      · refine .inl (event_text fun u => ?_)
        simp only [hf, Bool.false_eq_true, if_false]
        exact (same_withLinkOnly _).text
    · exact .inl .rfl

theorem runRequest_text {n : Nat} {owner : List Byte → State → Answer} (ho : ∀ {u} b, Same qs u (owner b u).state)
    (hs : .store ∉ qs := by decide) (hk : .script ∉ qs := by decide) : SameText s (runRequest n owner s) := by
  obtain h | ⟨r, rest, -, -, -, h⟩ := runRequestIf_text (fun r => r.kind.toNat = n) owner s
  · exact h
  · exact ((sameText_withCause true).trans ((ho r.body).text hs hk)).trans h

/-! The work of the blocks that can set the transmitter going between its steps (R183). -/

theorem sameText_finishCueWork : SameText s (finishCueWork s) := by
  refine (same_endFlash.text.trans same_endCueFlag.text).trans (SameText.foldl (fun u n => ?_) _ _)
  unfold expireIfDue
  split
  · exact (same_expireTimer n).text.trans sameText_sendIfIdle
  · exact .rfl

theorem sameText_cueReady : SameText s (cueReady s) := sameText_finishCueWork.trans same_drainCueMail.text

theorem sameText_passageCheck (a b : Pos) (fwd : Bool) (mode : CheckMode) :
    SameText s (passageCheck a b fwd mode s).1 := by
  unfold passageCheck
  dsimp only
  split
  · exact sameText_cueReady
  · split
    · exact sameText_cueReady.trans (same_passLines _ _ _).text
    · exact sameText_cueReady.trans (same_setQueue _).text

theorem sameText_travelSpan (mode : CheckMode) (fwd : Bool) (a b : Pos) :
    SameText s (travelSpan mode fwd a b s).1 := by
  unfold travelSpan
  dsimp only
  split <;> exact (sameText_passageCheck _ _ _ _).trans (same_withEngine _).text

theorem sameText_advanceBy (v : Int) (x : Travel) (fwd : Bool) (p : Pos) : SameText s (advanceBy v x fwd p s) := by
  have h (mode : CheckMode) := (same_withEngine { s.engine with velocity := v }).text.trans
    (sameText_travelSpan (s := s.withEngine { s.engine with velocity := v }) mode fwd p x.stop)
  unfold advanceBy
  generalize (if s.engine.motion = .gliding then CheckMode.silent else .fire) = mode
  dsimp only
  split
  · exact (h _).trans (same_enterHalted _).text
  · split
    · exact (h _).trans (same_enterHalted _).text
    · exact h _

theorem sameText_advanceToGoal (g : Goal) (p : Pos) (r : Reach) : SameText s (advanceToGoal g p r s) := by
  unfold advanceToGoal
  dsimp only
  split
  · split <;> exact (same_withEngine _).text.trans (sameText_advanceBy _ _ _ _)
  · exact (same_withEngine _).text.trans (sameText_advanceBy _ _ _ _)

theorem sameText_advance : SameText s (advance s) := by
  unfold advance
  split
  · exact .rfl
  · split
    · exact .rfl
    · dsimp only
      split
      · exact .rfl
      · split
        · exact (same_withEngine _).text
        · exact sameText_advanceBy _ _ _ _
      · split
        · exact (same_enterHalted _).text
        · exact sameText_advanceBy _ _ _ _
      all_goals
        split
        · exact sameText_advanceToGoal _ _ _
        · exact .rfl

theorem sameText_frameAdvance (f : Half) : SameText s (frameAdvance f s) :=
  ((same_reportAir.text.trans sameText_advance).trans same_designate.text).trans (same_sendPublish _).text

theorem sameText_engineReady : SameText s (engineReady s) := by
  unfold engineReady
  split
  · exact .rfl
  · exact same_takeReports.text.trans sameText_sendIfIdle

theorem sameText_jog (d : Int) : SameText s (jog d s) := by
  have ht (a b : Pos) := (sameText_cueReady (s := s).trans same_jogHalt.text).trans
    (sameText_travelSpan .fire (decide (0 < d)) a b)
  unfold jog
  split
  · exact .rfl
  · split
    · exact same_jogHalt.text
    · split
      · exact same_jogHalt.text
      · refine SameText.trans ?_ same_designate.text
        split
        · exact (ht _ _).trans (same_enterHalted _).text
        · exact ht _ _

theorem sameText_silenceFault (p : PortNo) : SameText s (silenceFault p s) := by
  unfold silenceFault
  split
  · exact (same_enterFaulted _ _).text.trans sameText_sendIfIdle
  · exact .rfl

theorem sameText_portReady (p : PortNo) : SameText s (portReady p s) :=
  (same_sendIdle p).text.trans (sameText_silenceFault p)

theorem portEvent_text {p : PortNo} {f : State → State} (h : ∀ u, SameText u (f u)) : SameText s (portEvent p f s) :=
  event_text fun _ => (sameText_portReady p).trans (h _)

theorem sameText_linkFault (c : LinkErrorCause) : SameText s (linkFault c s) := ⟨by simp [linkFault], by simp [linkFault]⟩

theorem sameText_hostGap : SameText s (hostGap s) := by
  unfold hostGap
  split
  · exact (same_withLinkOnly _).text.trans (sameText_linkFault _)
  · exact .rfl

theorem sameText_offerFrame (k : Byte) (b : List Byte) : SameText s (offerFrame k b s) := by
  unfold offerFrame
  dsimp only
  split
  · exact (same_withLinkOnly _).text
  · split
    · exact (same_withLinkOnly _).text
    · exact sameText_linkFault _

theorem sameText_hostChars (cs : List LineChar) : SameText s (hostChars cs s) := by
  refine sameText_hostGap.trans (SameText.foldl (fun u c => ?_) _ _)
  have hr (x : LinkRx) : SameText u (u.withLink { u.link with rx := x }) := (same_withLinkOnly _).text
  unfold hostChar
  dsimp only
  split
  · exact (hr _).trans (sameText_offerFrame _ _)
  · exact (hr _).trans (sameText_linkFault _)
  · exact hr _

end sameText

/-! ### The commands that leave both alone -/

/-- The outcome is a next state with the property. -/
def Ends (o : Out) (p : State → Prop) : Prop :=
  match o with
  | .next t => p t
  | .fault _ | .refused _ => False

theorem Ends.next {o : Out} {p : State → Prop} {t : State} (h : Ends o p) (ho : o = .next t) : p t := by
  subst ho; exact h

section exec
variable {s : State}

/-- A channel's message taken by a block other than the Script Table. -/
theorem takeHead_mailText {α β : Type} {c : List (Msg α)} {want : α → Option β} {x : List (Msg α) → State → Mail}
    {f : β → State → State} (hf : ∀ x u, SameText u (f x u)) :
    SameText s (takeHead c want (fun r u => u.withMail (x r u)) f s) :=
  takeHead_text (fun _ _ => (same_withMail _).text) hf

theorem takeReportIf_text (want : ScriptReport → Bool) : SameText s (takeReportIf want s) :=
  takeHead_mailText fun r _ => (same_takeReport r).text.trans same_takeReports.text

theorem takePortMsg_text {β : Type} {p : PortNo} {want : PortMsg → Option β} {f : β → State → State}
    (hf : ∀ x u, SameText u (f x u)) : SameText s (takePortMsg p want f s) :=
  takeHead_mailText hf

theorem takeCueReportIf_text {α : Type} (want : CueMsg → Option α) : SameText s (takeCueReportIf want s) :=
  takeHead_mailText fun _ _ => sameText_finishCueWork.trans same_rebuild.text

theorem takeInputIf_text {want : HolderInput → Option (State → State)}
    (h : ∀ i f, want i = some f → ∀ u, SameText u (f u)) : SameText s (takeInputIf want s) := by
  unfold takeInputIf takeHead
  split
  · split
    · next x hx => exact (same_withMail _).text.trans (event_text fun _ => sameText_engineReady.trans (h _ _ hx _))
    · exact .rfl
  · exact .rfl

theorem unknownRequest_text : Ends (execUnknownRequest s) (SameText s) := by
  show SameText s _
  split
  · exact .rfl
  · exact .ite (event_text fun _ => (same_withLinkOnly _).text) .rfl

/-- The commands that the rules let change neither the Text Store nor the Script Table change neither. -/
theorem exec_sameText (c : Instr) (hs : .store ∉ touches c) (hk : .script ∉ touches c) :
    Ends (exec c s) (SameText s) := by
  cases c with
  | powerOnReset | resetTakesEffect | openStory | appendLine | closeStoryCommit | closeStoryAbandon | freeStory
  | setStory | placeEntry | moveEntry | removeEntry | floatEntry | insertLine | replaceLine | deleteLines | clearFault
  | designationReport | airFrameReport => exact absurd (by simp [touches]) hk
  | setNotices => exact absurd (by simp [touches]) hs
  | checkedFrame cs => exact event_text fun _ => sameText_hostChars cs
  | receiveFault cs => exact event_text fun _ => sameText_hostChars cs
  | frameTimeout => exact event_text fun _ => sameText_hostGap
  | unknownRequest => exact unknownRequest_text
  | transmitNext => exact SameText.ite .rfl (event_text fun _ => sameText_transmitNext)
  | queryStory => exact runRequest_text same_queryStory
  | queryStore => exact runRequest_text (qs := []) fun _ => Same.rfl
  | queryOrder => exact runRequest_text (qs := []) fun _ => Same.rfl
  | readLine => exact runRequest_text same_readLine
  | queryFault => exact runRequest_text (qs := []) fun _ => Same.rfl
  | run => exact runRequest_text same_runScroll
  | stop => exact runRequest_text (qs := [.engine]) fun _ => same_withEngine _
  | halt => exact runRequest_text (qs := [.engine, .notices]) fun _ => same_enterHalted _
  | step => exact runRequest_text same_stepScroll
  | goTo => exact runRequest_text same_goToRequest
  | setSpeed => exact runRequest_text same_setSpeed
  | setMotion => exact runRequest_text same_setMotion
  | setPreview => exact runRequest_text same_setPreview
  | queryMotion => exact runRequest_text (qs := []) fun _ => Same.rfl
  | frameAdvance => exact takeHead_mailText fun f _ => sameText_engineReady.trans (sameText_frameAdvance f)
  | insertReport => exact takeReportIf_text _
  | deleteReport => exact takeReportIf_text _
  | storyIneligibleReport => exact takeReportIf_text _
  | storyEligibleReport => exact takeReportIf_text _
  | orderChangedReport => exact takeReportIf_text _
  | setTarget => exact takeInputIf_text fun | .setTarget _, _, rfl, _ => (same_withEngine _).text
  | startStopKey => exact takeInputIf_text fun | .key, _, rfl, _ => same_startStop.text
  | jog => exact takeInputIf_text fun | .jog d, _, rfl, _ => sameText_jog d
  | stopExpiryAction => exact takeHead_mailText fun _ _ => sameText_engineReady.trans (same_withEngine _).text
  | setDriveMode => exact runRequest_text same_setDriveMode
  | setPortClass => exact runRequest_text same_setPortClass
  | pinDrive => exact runRequest_text same_pinDrive
  | claimDrive => exact runRequest_text same_claimDrive
  | releaseDrive => exact runRequest_text same_releaseDrive
  | queryDrive => exact runRequest_text (qs := []) fun _ => Same.rfl
  | claim p => exact takePortMsg_text fun _ _ => (same_arbiterEvent _).text
  | idle p => exact takePortMsg_text fun _ _ => (same_arbiterEvent _).text
  | portReady p => exact takePortMsg_text fun _ _ => (same_arbiterEvent _).text
  | portGone p => exact takePortMsg_text fun _ _ => (same_arbiterEvent _).text
  | passHolderInput p => exact takePortMsg_text fun x _ => (same_iteState (same_sendInput x) Same.rfl).text
  | standingReport p => exact takeHead_mailText fun _ _ => (sameText_portReady p).trans (same_updatePort _ _).text
  | enablePort => exact runRequest_text same_enablePort
  | disablePort => exact runRequest_text same_disablePort
  | resetPort => exact runRequest_text same_resetPort
  | setPort => exact runRequest_text same_setPort
  | setLamp => exact runRequest_text same_setLamp
  | queryPort => exact SameText.ite (event_text fun _ => same_finishAcks.text) (runRequest_text same_queryPort)
  | presenceFound p =>
    exact portEvent_text fun _ => .ite ((same_updatePort _ _).text.trans (same_setChange _ _).text) .rfl
  | presenceLost p =>
    exact portEvent_text fun _ =>
      .ite (((same_updatePort _ _).text.trans (same_setChange _ _).text).trans (same_leaveEnabled _ _).text) .rfl
  | holdOffEnd p =>
    refine portEvent_text fun u => ?_
    split
    · exact .ite (same_updatePort _ _).text .rfl
    · exact .rfl
  | overcurrent p =>
    exact portEvent_text fun _ => .ite ((same_updatePort _ _).text.trans (same_enterFaulted _ _).text) .rfl
  | poll p => exact portEvent_text fun _ => .ite (same_updatePort _ _).text .rfl
  | silenceFault p => exact event_text fun _ => sameText_portReady p
  | hello p cs => exact portEvent_text fun _ => (same_portChars p cs).text
  | dataReport p cs => exact portEvent_text fun _ => (same_portChars p cs).text
  | releaseTimeReached p => exact event_text fun _ => (same_sendIdle p).text
  | lampFlash p => exact takeHead_mailText fun _ _ => (sameText_portReady p).trans (same_updatePort _ _).text
  | lampFlashEnd p => exact takeHead_mailText fun _ _ => (sameText_portReady p).trans (same_updatePort _ _).text
  | cueFrameStart => exact takeHead_mailText fun _ _ => sameText_cueReady.trans (same_withCues _).text
  | flashCountEnd => exact event_text fun _ => same_endFlash.text
  | cueFlagCountEnd => exact event_text fun _ => same_endCueFlag.text
  | timerExpiry n =>
    exact SameText.ite (event_text fun _ =>
      (same_endFlash.text.trans same_endCueFlag.text).trans (same_expireTimer n).text) .rfl
  | positionJumped => exact takeHead_mailText fun _ _ => sameText_finishCueWork.trans same_rebuild.text
  | lineRewritten => exact takeCueReportIf_text _
  | scriptChangeReport => exact takeCueReportIf_text _
  | queryCues => exact runRequest_text (qs := []) fun _ => Same.rfl
  | skipCue => exact runRequest_text same_skipCue
  | setTimer => exact runRequest_text same_setTimer
  | startTimer => exact runRequest_text same_startTimerRequest
  | stopTimer => exact runRequest_text same_stopTimerRequest
  | queryTimers => exact runRequest_text (qs := []) fun _ => Same.rfl
  | freeRunFrameStart => exact event_text fun _ => (same_iteState same_frameStart Same.rfl).text
  | referencePulse => exact event_text fun _ => same_takePulse.text
  | flywheelFrame =>
    exact event_text fun _ => .ite (same_frameStart.text.trans
      (.ite ((same_withClock _).text.trans (same_raise _).text) (same_withClock _).text)) .rfl
  | setFrame => exact runRequest_text same_setFrame
  | setReference => exact runRequest_text same_setReference
  | queryFrame => exact runRequest_text (qs := []) fun _ => Same.rfl
  | viewBuild h => exact takeHead_mailText fun x _ => (same_takePublish x h).text
  | headReady h cs => exact event_text fun _ => (same_headChars h cs).text
  | fetch h cs => exact event_text fun _ => (same_headChars h cs).text
  | headFrameDiscard h cs => exact event_text fun _ => (same_headChars h cs).text
  | headSilenceTimeout h => exact event_text fun _ => .ite ((same_updateHead _ _).text.trans (same_raise _).text) .rfl
  | headTransmit h => exact event_text fun _ => (same_updateHead _ _).text
  | cueFlag h => exact takeHead_mailText fun _ _ => (same_updateHead _ _).text
  | cueFlagEnd h => exact takeHead_mailText fun _ _ => (same_updateHead _ _).text
  | setHead => exact runRequest_text same_setHead
  | queryHead => exact runRequest_text same_queryHead
  | identify => exact runRequest_text (qs := []) fun _ => Same.rfl
  | reset => exact runRequest_text same_resetRequest

end exec
end Sys2Proof.Machine

namespace Sys2Proof.Machine

/-! ### The store's operations, each said once (R7 to R12) -/

section store
variable (s : State)

/-- Taking the pool's head: what the Text Store holds after it, the Store Low test included (R7, R11). -/
theorem blockTaken_store (n : Nat) (rest : List Nat) (r : LineRecord) : (blockTaken s n rest r).store =
    { s.store with
      pool := rest, blocks := writeBlock s.store.blocks n { gen := (s.store.read n).gen, record := some r }
      armed := s.store.armed && decide (s.store.threshold ≤ rest.length) } := by
  unfold blockTaken
  dsimp only
  split <;> rfl

theorem blockTaken_link (n : Nat) (rest : List Nat) (r : LineRecord) : (blockTaken s n rest r).link =
    if s.store.armed = true ∧ rest.length < s.store.threshold then s.link.raise .storeLow else s.link := by
  unfold blockTaken
  dsimp only
  split <;> rfl

@[simp] theorem blockTaken_script (n : Nat) (rest : List Nat) (r : LineRecord) :
    (blockTaken s n rest r).script = s.script := by
  unfold blockTaken
  dsimp only
  split <;> rfl

/-- The mark of the event under way plays no part in it. -/
theorem blockTaken_withCause (n : Nat) (rest : List Nat) (r : LineRecord) (b : Bool) :
    blockTaken (s.withCause b) n rest r = (blockTaken s n rest r).withCause b := by
  unfold blockTaken
  dsimp only
  rw [apply_ite (State.withCause · b)]
  rfl

/-- Take Block takes the pool's head, or nothing of an empty pool. -/
theorem takeBlock_inv {r : LineRecord} {n : Nat} {u : State} (h : takeBlock r s = some (n, u)) :
    ∃ rest, s.store.pool = n :: rest ∧ u = blockTaken s n rest r := by
  cases hp : s.store.pool with
  | nil => simp [takeBlock, hp] at h
  | cons m rest =>
    rw [takeBlock_head hp, Option.some.injEq, Prod.mk.injEq] at h
    obtain ⟨rfl, rfl⟩ := h
    exact ⟨rest, rfl, rfl⟩

theorem takeBlock_empty {r : LineRecord} (h : s.store.pool = []) : takeBlock r s = none := by
  simp [takeBlock, h]

/-- The re-arm test touches the arming alone (R12). -/
theorem rearmTest_store : (rearmTest s).store =
    { s.store with armed := s.store.armed || decide (s.store.rearmLevel ≤ s.store.freeCount) } := by
  unfold rearmTest
  cases ha : s.store.armed <;> by_cases hl : s.store.rearmLevel ≤ s.store.freeCount <;>
    simp [hl, ← ha]

/-- The Store Low test touches the arming alone, and lists its notice (R11). -/
theorem storeLowTest_store : (storeLowTest s).store =
    { s.store with armed := s.store.armed && decide (s.store.threshold ≤ s.store.freeCount) } := by
  unfold storeLowTest
  by_cases hl : s.store.threshold ≤ s.store.freeCount
  · simp [hl, Nat.not_lt.2 hl]
  · cases ha : s.store.armed
    · rw [if_neg (by simp), Bool.false_and, ← ha]
    · simp [hl, Nat.lt_of_not_le hl]

/-- Return Run, its re-arm test included: what the Text Store holds after it (R8, R12). -/
theorem returnRun_store (run : List Nat) : (returnRun run s).store =
    { s.store with
      pool := s.store.pool ++ run, blocks := (run.foldl TextStore.returnOne s.store).blocks
      armed := s.store.armed ||
        decide (min (s.store.threshold + 64) 8192 ≤ s.store.pool.length + run.length) } := by
  obtain ⟨hp, ha, ht⟩ := foldl_returnOne_pool run s.store
  unfold returnRun
  rw [rearmTest_store]
  simp only [State.withStore_store, TextStore.rearmLevel, TextStore.freeCount, hp, ha, ht, List.length_append,
    Config.rearmMargin, Config.blocks]

@[simp] theorem returnRun_script (run : List Nat) : (returnRun run s).script = s.script :=
  (same_returnRun run).script (by decide)

@[simp] theorem returnRun_link (run : List Nat) : (returnRun run s).link = s.link := by
  unfold returnRun rearmTest
  split <;> rfl

theorem returnRun_withCause (run : List Nat) (b : Bool) :
    returnRun run (s.withCause b) = (returnRun run s).withCause b := by
  unfold returnRun rearmTest
  rw [apply_ite (State.withCause · b)]
  rfl

/-- A Return Run leaves every block it does not name as it reads. -/
theorem returnRun_read_other {run : List Nat} {m : Nat} (h : m ∉ run) :
    (returnRun run s).store.read m = s.store.read m := by
  rw [returnRun_store]
  show (run.foldl TextStore.returnOne s.store).read m = s.store.read m
  generalize s.store = t
  induction run generalizing t with
  | nil => rfl
  | cons n run ih =>
    rw [List.mem_cons, not_or] at h
    rw [List.foldl_cons, ih h.2]
    exact blockAt_write_other h.1

theorem returnRun_read {run : List Nat} (hr : run.Nodup) (h : BlocksWf s.store.blocks) (m : Nat) :
    (returnRun run s).store.read m =
      if m ∈ run then { gen := (s.store.read m).gen + 1, record := none } else s.store.read m := by
  rw [returnRun_store]
  exact foldl_returnOne_read run hr h m

/-- A write of one block, as every read sees it. -/
theorem blockAt_write {bs : List (Nat × LineBlock)} (h : BlocksWf bs) (n : Nat) (x : LineBlock) (m : Nat) :
    blockAt (writeBlock bs n x) m = if m = n then x else blockAt bs m := by
  split
  · next e => subst e; exact blockAt_write_self h
  · next e => exact blockAt_write_other e

theorem blockTaken_read (h : BlocksWf s.store.blocks) (n : Nat) (rest : List Nat) (r : LineRecord) (m : Nat) :
    (blockTaken s n rest r).store.read m =
      if m = n then { gen := (s.store.read n).gen, record := some r } else s.store.read m := by
  rw [blockTaken_store]
  exact blockAt_write h _ _ _

theorem rewriteBlock_read (h : BlocksWf s.store.blocks) (n : Nat) (r : LineRecord) (m : Nat) :
    (rewriteBlock n r s).store.read m =
      if m = n then { gen := (s.store.read n).gen + 1, record := some r } else s.store.read m :=
  blockAt_write h _ _ _

end store

/-- Settles O20, from what each operation makes of the store and of every read. -/
theorem storeRequests : Obligations.StoreRequests := by
  intro s h
  refine ⟨fun r hp => takeBlock_empty s hp, fun r n rest hp => ?_, fun run hr => ?_, fun n r => ?_⟩
  · refine ⟨_, takeBlock_head hp, ?_, ?_, ?_, blockTaken_link _ _ _ _, blockTaken_read s h n rest r⟩ <;>
      rw [blockTaken_store]
  · refine ⟨?_, ?_, ?_, returnRun_link _ _, returnRun_read s hr h⟩ <;> rw [returnRun_store]
  · exact ⟨rfl, rfl, rfl, rfl, rewriteBlock_read s h n r⟩

end Sys2Proof.Machine

namespace Sys2Proof.Machine

/-! ### What the requests of the store and the script make of both

Each owner that writes a block or a descriptor, said once: it leaves what the invariants read, or it makes the one
change its rule gives. -/

/-- A script with the story of one slot written, its order and its open load kept; the records of edits and of the
on-air history aside. -/
structure Wrote (t : ScriptTable) (k : Slot) (y : Story) (t' : ScriptTable) : Prop where
  stories : t'.stories = t.stories.set k.val y k.isLt
  order : t'.order = t.order
  load : t'.load = t.load

/-- The same stories, order and open load; the records of edits and of the on-air history aside. -/
structure Kin (t t' : ScriptTable) : Prop where
  stories : t'.stories = t.stories
  order : t'.order = t.order
  load : t'.load = t.load

section wrote
variable {t t' : ScriptTable} {k : Slot} {y z : Story}

theorem Kin.rfl : Kin t t := by constructor <;> trivial

theorem wrote_withStory : Wrote t k y (t.withStory k y) := by constructor <;> rfl

/-- A story written twice is as it was written last. -/
theorem Wrote.trans {t'' : ScriptTable} (h : Wrote t k y t') (h' : Wrote t' k z t'') : Wrote t k z t'' where
  stories := by simp [h'.stories, h.stories]
  order := h'.order.trans h.order
  load := h'.load.trans h.load

theorem Wrote.self (h : Wrote t k y t') : t'.stories[k] = y := by simp [h.stories]

theorem Wrote.other (h : Wrote t k y t') {j : Slot} (hj : j ≠ k) : t'.stories[j] = t.stories[j] := by
  have : k.val ≠ j.val := fun e => hj (Fin.ext e.symm)
  simp [h.stories, this]

/-- A story as it stands, written anew. -/
theorem Kin.wrote (h : Kin t t') (k : Slot) : Wrote t k t.stories[k] t' where
  stories := by simp [h.stories]
  order := h.order
  load := h.load
end wrote

/-! An edit's records (R50, R57) -/

/-- An aborted edit leaves at most a fault record. -/
theorem kin_offerFault (r : FaultRecord) (s : State) : Kin s.script (offerFault r s).script := by
  unfold offerFault
  split <;> constructor <;> rfl

theorem offerFault_store (r : FaultRecord) (s : State) : (offerFault r s).store = s.store :=
  (same_offerFault r).store (by decide)

/-- A completed edit leaves its mark on the story: at most the changed flag is set. -/
theorem noteEdit_wrote (e : EditKind) (k : Slot) (i : Nat) (d : Int) (s : State) :
    ∃ c, Wrote s.script k { s.script.stories[k] with changed := c } (noteEdit e k i d s).script := by
  have hc : ∃ c, Wrote s.script k { s.script.stories[k] with changed := c } (noteChange k s).script := by
    unfold noteChange
    dsimp only
    split
    · exact ⟨true, rfl, rfl, rfl⟩
    · exact ⟨s.script.stories[k].changed, Kin.rfl.wrote k⟩
  obtain ⟨c, h⟩ := hc
  refine ⟨c, ?_⟩
  unfold noteEdit noteWatch
  split
  · exact ⟨h.stories, h.order, h.load⟩
  · exact h

theorem noteEdit_store (e : EditKind) (k : Slot) (i : Nat) (d : Int) (s : State) :
    (noteEdit e k i d s).store = s.store :=
  (same_noteEdit e k i d).store (by decide)

/-- The lines of a story replaced in a completed edit. -/
theorem noteEdit_withLines (e : EditKind) (k : Slot) (i : Nat) (d : Int) (ls : List Nat) (s : State) :
    ∃ c, Wrote s.script k { s.script.stories[k] with changed := c, lines := ls }
      ((noteEdit e k i d s).script.withLines k ls) := by
  obtain ⟨c, h⟩ := noteEdit_wrote e k i d s
  refine ⟨c, ?_⟩
  unfold ScriptTable.withLines
  rw [h.self]
  exact h.trans wrote_withStory

@[simp] theorem changeScript_script (lead : List ScriptReport) (k : Slot) (x : ScriptTable) (s : State) :
    (changeScript lead k x s).script = x := rfl

@[simp] theorem changeScript_store (lead : List ScriptReport) (k : Slot) (x : ScriptTable) (s : State) :
    (changeScript lead k x s).store = s.store := rfl

/-! The owners -/

/-- What a request may leave behind that changes no block and no story: at most an edit fault record. -/
structure Unwritten (s t : State) : Prop where
  store : t.store = s.store
  script : Kin s.script t.script

theorem Unwritten.rfl {s : State} : Unwritten s s := ⟨Eq.refl _, Kin.rfl⟩

section owners
variable {s : State}

variable {t : State} {b : List Byte}

/-- A slot field out of range is refused; otherwise the slot is the one it names. -/
theorem withSlot_inv {n : Nat} {f : Slot → Answer} (h : (withSlot n s f).state = t) :
    t = s ∨ ∃ k : Slot, n = k.val ∧ (f k).state = t := by
  unfold withSlot at h
  split at h
  · exact .inr ⟨_, rfl, h⟩
  · exact .inl h.symm

/-- An edit completed has passed the State and protection steps; otherwise no block and no story changes. -/
theorem editChecks_inv {e : EditKind} {k : Slot} {i : Nat} {f : State → Answer}
    (h : (editChecks e k i s f).state = t) : Unwritten s t ∨
      s.script.stories[k].state = .ready ∧
        (protection (e = .insert) s.script.stories[k] s.store).isEmpty = true ∧ (f s).state = t := by
  unfold editChecks at h
  dsimp only at h
  split at h
  · exact .inl (h ▸ .rfl)
  · exact .inl (h ▸ .rfl)
  · next hr =>
    split at h
    · next hc => exact .inr ⟨hr, hc, h⟩
    · exact .inl (h ▸ ⟨offerFault_store _ _, kin_offerFault _ _⟩)

/-- An Insert Line that passes the protection step finds room under the story's limit (R45). -/
theorem protection_limit {y : Story} {x : TextStore} (h : (protection true y x).isEmpty = true) :
    y.lines.length ≠ y.limit := by
  intro e
  simp [protection, Causes.isEmpty, e] at h

theorem Story.held_of_ready {y : Story} (h : y.state = .ready) : y.held = true := by simp [Story.held, h]

theorem appendLine_inv (h : (appendLine b s).state = t) : Unwritten s t ∨
    ∃ k n rest r, s.script.load = some k ∧ s.script.stories[k].lines.length ≠ s.script.stories[k].limit ∧
      s.store.pool = n :: rest ∧ t.store = (blockTaken s n rest r).store ∧
      Wrote s.script k { s.script.stories[k] with lines := s.script.stories[k].lines ++ [n] } t.script := by
  unfold appendLine at h
  split at h
  · exact .inl (h ▸ .rfl)
  · next r _ =>
    split at h
    · exact .inl (h ▸ .rfl)
    · next k hk =>
      dsimp only at h
      split at h
      · exact .inl (h ▸ .rfl)
      · next hl =>
        split at h
        · exact .inl (h ▸ .rfl)
        · next n u hu =>
          obtain ⟨rest, hp, rfl⟩ := takeBlock_inv s hu
          subst h
          refine .inr ⟨k, n, rest, r, hk, hl, hp, rfl, ?_⟩
          simp only [done_state, State.withScript_script, blockTaken_script]
          exact wrote_withStory

theorem insertLine_inv (h : (insertLine b s).state = t) : Unwritten s t ∨
    ∃ k n rest r i c, s.script.stories[k].state = .ready ∧
      s.script.stories[k].lines.length ≠ s.script.stories[k].limit ∧ s.store.pool = n :: rest ∧
      t.store = (blockTaken s n rest r).store ∧
      Wrote s.script k
        { s.script.stories[k] with changed := c, lines := insertLineAt s.script.stories[k].lines i n } t.script := by
  obtain rfl | ⟨k, -, h⟩ := withSlot_inv h
  · exact .inl .rfl
  dsimp only at h
  split at h
  · exact .inl (h ▸ .rfl)
  · next r _ =>
    split at h
    · exact .inl (h ▸ .rfl)
    · obtain h | ⟨hr, hc, h⟩ := editChecks_inv h
      · exact .inl h
      · unfold completeInsert at h
        split at h
        · exact .inl (h ▸ .rfl)
        · next n u hu =>
          obtain ⟨rest, hp, rfl⟩ := takeBlock_inv s hu
          obtain ⟨c, hw⟩ := noteEdit_withLines .insert k (u16 b 1) 1
            (insertLineAt s.script.stories[k].lines (u16 b 1) n) (blockTaken s n rest r)
          subst h
          refine .inr ⟨k, n, rest, r, u16 b 1, c, hr, protection_limit hc, hp, ?_, ?_⟩
          · simp [noteEdit_store]
          · simpa using hw

theorem replaceLine_inv (h : (replaceLine b s).state = t) : Unwritten s t ∨
    ∃ k n r c, u8 b 0 = k.val ∧ s.script.stories[k].lines[u16 b 1]? = some n ∧
      t.store = (rewriteBlock n r s).store ∧
      Wrote s.script k { s.script.stories[k] with changed := c } t.script := by
  obtain rfl | ⟨k, hk, h⟩ := withSlot_inv h
  · exact .inl .rfl
  dsimp only at h
  split at h
  · exact .inl (h ▸ .rfl)
  · next r _ =>
    split at h
    · exact .inl (h ▸ .rfl)
    · next hi =>
      obtain h | ⟨hr, -, h⟩ := editChecks_inv h
      · exact .inl h
      · have hlt : u16 b 1 < s.script.stories[k].lines.length :=
          Nat.lt_of_not_le fun hle => hi ⟨Story.held_of_ready hr, hle⟩
        obtain ⟨c, hw⟩ := noteEdit_wrote .replace k (u16 b 1) 0
          (rewriteBlock (s.script.stories[k].lines.getD (u16 b 1) 0) r s)
        subst h
        refine .inr ⟨k, _, r, c, hk, ?_, noteEdit_store _ _ _ _ _, hw⟩
        rw [List.getD_eq_getElem _ _ hlt, List.getElem?_eq_getElem hlt]

theorem deleteLines_inv (h : (deleteLines b s).state = t) : Unwritten s t ∨
    ∃ k c, u8 b 0 = k.val ∧ s.script.stories[k].state = .ready ∧
      t.store = (returnRun ((s.script.stories[k].lines.drop (u16 b 1)).take (u8 b 3)) s).store ∧
      Wrote s.script k
        { s.script.stories[k] with
          changed := c
          lines := s.script.stories[k].lines.take (u16 b 1) ++ s.script.stories[k].lines.drop (u16 b 1 + u8 b 3) }
        t.script := by
  obtain rfl | ⟨k, hk, h⟩ := withSlot_inv h
  · exact .inl .rfl
  dsimp only at h
  split at h
  · exact .inl (h ▸ .rfl)
  · obtain h | ⟨hr, -, h⟩ := editChecks_inv h
    · exact .inl h
    · obtain ⟨c, hw⟩ := noteEdit_withLines .delete k (u16 b 1) (-(u8 b 3 : Int))
        (s.script.stories[k].lines.take (u16 b 1) ++ s.script.stories[k].lines.drop (u16 b 1 + u8 b 3))
        (returnRun ((s.script.stories[k].lines.drop (u16 b 1)).take (u8 b 3)) s)
      subst h
      refine .inr ⟨k, c, hk, hr, ?_, ?_⟩
      · simp [completeDelete, noteEdit_store]
      · simpa [completeDelete] using hw

theorem freeStory_inv (h : (freeStory b s).state = t) : Unwritten s t ∨
    ∃ k, u8 b 0 = k.val ∧ s.script.stories[k].state = .ready ∧ s.script.entryIndex k = none ∧
      t.store = (returnRun s.script.stories[k].lines s).store ∧ Wrote s.script k Story.free t.script := by
  obtain rfl | ⟨k, hk, h⟩ := withSlot_inv h
  · exact .inl .rfl
  dsimp only at h
  split at h
  · exact .inl (h ▸ .rfl)
  · exact .inl (h ▸ .rfl)
  · next hr =>
    split at h
    · exact .inl (h ▸ .rfl)
    · next he =>
      subst h
      exact .inr ⟨k, hk, hr, by simpa using he, rfl, wrote_withStory⟩

theorem closeAbandon_inv (h : (closeAbandon b s).state = t) : Unwritten s t ∨
    ∃ k, s.script.load = some k ∧ t.store = (returnRun s.script.stories[k].lines s).store ∧
      t.script = { s.script.withStory k Story.free with
        load := none, order := s.script.order.filter (fun e => e.slot ≠ k) } := by
  unfold closeAbandon at h
  split at h
  · exact .inl (h ▸ .rfl)
  · next k hk =>
    subst h
    exact .inr ⟨k, hk, rfl, rfl⟩

theorem setNotices_inv (h : (setNotices b s).state = t) : Unwritten s t ∨
    ∃ th, th ≤ 8192 ∧ t.store = { s.store with threshold := th, armed := t.store.armed } ∧ t.script = s.script := by
  have hk : t.script = s.script := h ▸ (same_setNotices b).script (by decide)
  unfold setNotices at h
  dsimp only at h
  split at h
  · exact .inl (h ▸ .rfl)
  · next hc =>
    refine .inr ⟨u16 b 2, Nat.le_of_not_lt fun hlt => hc (.inl hlt), ?_, hk⟩
    rw [← h, done_state, storeLowTest_store, rearmTest_store]
    rfl

end owners
end Sys2Proof.Machine

namespace Sys2Proof.Machine

/-! ### The blocks that a command leaves as they read -/

section reads
variable {qs : List Part} {s t : State}

theorem runRequestIf_store {meant : Request → Bool} {owner : List Byte → State → Answer}
    (ho : ∀ {u} b, Same qs u (owner b u).state) (hs : .store ∉ qs := by decide) :
    (runRequestIf meant owner s).store = s.store := by
  obtain h | ⟨r, rest, -, -, -, h⟩ := runRequestIf_text meant owner s
  · exact h.store
  · exact h.store.trans ((ho r.body).store hs)

/-- The commands that the rules let leave the Text Store alone leave it alone. -/
theorem exec_store (c : Instr) (hs : .store ∉ touches c) : Ends (exec c s) (fun t => t.store = s.store) := by
  have hmsg {want : ScriptMsg → Option Slot} {f : Slot → State → State} (hf : ∀ k u, (f k u).store = u.store) :
      (takeScriptMsg want f s).store = s.store := by
    unfold takeScriptMsg takeHead
    split
    · split
      · exact sameText_event.store.trans (hf _ _)
      · rfl
    · rfl
  by_cases hk : .script ∉ touches c
  · obtain ⟨t, ht⟩ : ∃ t, exec c s = .next t := by cases c <;> exact ⟨_, rfl⟩
    have h := exec_sameText (s := s) c hs hk
    rw [ht] at h ⊢
    exact h.store
  · cases c with
    | openStory => exact runRequestIf_store same_openStory
    | closeStoryCommit => exact runRequestIf_store same_closeCommit
    | setStory => exact runRequestIf_store same_setStory
    | placeEntry => exact runRequestIf_store same_placeEntry
    | moveEntry => exact runRequestIf_store same_moveEntry
    | removeEntry => exact runRequestIf_store same_removeEntry
    | floatEntry => exact runRequestIf_store same_floatEntry
    | clearFault => exact runRequestIf_store (qs := [.script]) fun _ => same_withScript _
    | designationReport => exact hmsg fun k _ => (same_designation k).store (by decide)
    | airFrameReport => exact hmsg fun k _ => (same_airFrame k).store (by decide)
    | _ => simp [touches] at hs hk

/-- A request that writes no block but those named leaves the others as they read. -/
theorem runRequestIf_read {meant : Request → Bool} {owner : List Byte → State → Answer} {n : Nat}
    (h : ∀ r rest, s.link.requests = r :: rest →
      (owner r.body (s.withCause true)).state.store.read n = s.store.read n) :
    (runRequestIf meant owner s).store.read n = s.store.read n := by
  obtain e | ⟨r, rest, hr, -, -, e⟩ := runRequestIf_text meant owner s
  · rw [e.store]
  · rw [e.store, h r rest hr]

theorem Unwritten.read (h : Unwritten s t) (n : Nat) : t.store.read n = s.store.read n := by rw [h.store]

theorem blockTaken_read_other {n m : Nat} {rest : List Nat} {r : LineRecord} (h : m ≠ n) :
    (blockTaken s n rest r).store.read m = s.store.read m := by
  rw [blockTaken_store]
  exact blockAt_write_other h

/-- The story that a slot field names. -/
theorem storyAt_slot {n : Nat} {k : Slot} (h : n = k.val) : storyAt s n = s.script.stories[k] := by
  subst h
  exact dif_pos k.isLt

end reads

/-- Settles O21: each command that writes blocks writes those that the inversion of its owner names. -/
theorem otherBlocksKept : Obligations.OtherBlocksKept := by
  intro c s t h hreset hpower n hn
  by_cases hs : .store ∉ touches c
  · rw [(exec_store c hs).next h]
  refine Ends.next (p := fun t => t.store.read n = s.store.read n) ?_ h
  cases c with
  | powerOnReset a b => exact absurd rfl (hpower a b)
  | resetTakesEffect => exact absurd rfl hreset
  | appendLine =>
    refine runRequestIf_read fun r rest hr => ?_
    obtain e | ⟨k, m, ms, x, -, -, hp, e, -⟩ := appendLine_inv (b := r.body) (s := s.withCause true) rfl
    · exact e.read n
    · rw [e]
      exact blockTaken_read_other fun hm => hn (by simp_all [writtenBlocks])
  | insertLine =>
    refine runRequestIf_read fun r rest hr => ?_
    obtain e | ⟨k, m, ms, x, i, c, -, -, hp, e, -⟩ := insertLine_inv (b := r.body) (s := s.withCause true) rfl
    · exact e.read n
    · rw [e]
      exact blockTaken_read_other fun hm => hn (by simp_all [writtenBlocks])
  | replaceLine =>
    refine runRequestIf_read fun r rest hr => ?_
    obtain e | ⟨k, m, x, c, hk, hm, e, -⟩ := replaceLine_inv (b := r.body) (s := s.withCause true) rfl
    · exact e.read n
    · rw [e]
      refine blockAt_write_other fun hnm => hn ?_
      simpa [writtenBlocks, hr, storyAt_slot hk, List.take_one, List.head?_drop, hnm] using hm
  | deleteLines =>
    refine runRequestIf_read fun r rest hr => ?_
    obtain e | ⟨k, c, hk, -, e, -⟩ := deleteLines_inv (b := r.body) (s := s.withCause true) rfl
    · exact e.read n
    · rw [e]
      refine returnRun_read_other _ fun hm => hn ?_
      simpa [writtenBlocks, hr, storyAt_slot hk] using hm
  | freeStory =>
    refine runRequestIf_read fun r rest hr => ?_
    obtain e | ⟨k, hk, -, -, e, -⟩ := freeStory_inv (b := r.body) (s := s.withCause true) rfl
    · exact e.read n
    · rw [e]
      refine returnRun_read_other _ fun hm => hn ?_
      simpa [writtenBlocks, hr, storyAt_slot hk] using hm
  | closeStoryAbandon =>
    refine runRequestIf_read fun r rest hr => ?_
    obtain e | ⟨k, hk, e, -⟩ := closeAbandon_inv (b := r.body) (s := s.withCause true) rfl
    · exact e.read n
    · rw [e]
      refine returnRun_read_other _ fun hm => hn ?_
      simpa [writtenBlocks, show s.script.load = some k from hk] using hm
  | setNotices =>
    refine runRequestIf_read fun r rest hr => ?_
    obtain e | ⟨th, -, e, -⟩ := setNotices_inv (b := r.body) (s := s.withCause true) rfl
    · exact e.read n
    · rw [e]; rfl
  | _ => simp [touches] at hs

end Sys2Proof.Machine

namespace Sys2Proof.Machine

/-! ### Every block in one place (R1, R6)

What each kind of change of the store and the line lists keeps. -/

/-- One story written: its old lines leave the line lists, its new ones join them. -/
theorem flatMap_set_perm {l : List Story} {i : Nat} (hi : i < l.length) (y : Story) :
    ((l.set i y).flatMap (·.lines) ++ l[i].lines).Perm (l.flatMap (·.lines) ++ y.lines) := by
  have h1 : l.set i y = l.take i ++ y :: l.drop (i + 1) := List.set_eq_take_append_cons_drop.trans (if_pos hi)
  have h2 : l.flatMap (·.lines) = (l.take i ++ l[i] :: l.drop (i + 1)).flatMap (·.lines) := by
    rw [List.getElem_cons_drop, List.take_append_drop]
  rw [h1, h2, List.perm_iff_count]
  intro a
  simp only [List.flatMap_append, List.flatMap_cons, List.count_append]
  omega

theorem Wrote.allLines {t t' : ScriptTable} {k : Slot} {y : Story} (h : Wrote t k y t') :
    (t'.allLines ++ t.stories[k].lines).Perm (t.allLines ++ y.lines) := by
  have hk : k.val < t.stories.toList.length := by simp
  simpa [ScriptTable.allLines, h.stories, Vector.toList_set] using flatMap_set_perm hk y

/-- A block that joins the lines of a story joins the line lists. -/
theorem Wrote.allLines_joined {t t' : ScriptTable} {k : Slot} {y : Story} (h : Wrote t k y t') {n : Nat}
    (hy : y.lines.Perm (n :: t.stories[k].lines)) : t'.allLines.Perm (n :: t.allLines) := by
  refine (List.perm_append_right_iff t.stories[k].lines).1 (h.allLines.trans ?_)
  exact (hy.append_left _).trans List.perm_middle

/-- A run that leaves the lines of a story leaves the line lists. -/
theorem Wrote.allLines_left {t t' : ScriptTable} {k : Slot} {y : Story} (h : Wrote t k y t') {run : List Nat}
    (hy : t.stories[k].lines.Perm (y.lines ++ run)) : t.allLines.Perm (t'.allLines ++ run) := by
  refine (List.perm_append_right_iff y.lines).1 (h.allLines.symm.trans ?_)
  rw [List.append_assoc]
  exact (hy.trans List.perm_append_comm).append_left _

theorem Wrote.allLines_kept {t t' : ScriptTable} {k : Slot} {y : Story} (h : Wrote t k y t')
    (hy : y.lines = t.stories[k].lines) : t'.allLines.Perm t.allLines :=
  (List.perm_append_right_iff t.stories[k].lines).1 (hy ▸ h.allLines)

section storeInv
variable {s t : State} {k : Slot} {y : Story}

/-- The lines of a story lie in the line lists. -/
theorem mem_allLines {x : ScriptTable} {n : Nat} (h : n ∈ x.stories[k].lines) : n ∈ x.allLines := by
  simp only [ScriptTable.allLines, List.mem_flatMap]
  exact ⟨_, by simp, h⟩

/-- Each block has one place. -/
theorem StoreInv.nodup (h : StoreInv s) : (s.store.pool ++ s.script.allLines).Nodup :=
  h.placed.nodup_iff.2 List.nodup_range

theorem StoreInv.inRange (h : StoreInv s) {n : Nat} (hn : n ∈ s.store.pool ++ s.script.allLines) : n < Config.blocks :=
  List.mem_range.1 (h.placed.mem_iff.1 hn)

/-- The store as it was, the line lists the same up to their order. -/
theorem StoreInv.of_same (h : StoreInv s) (hs : t.store = s.store) (hl : t.script.allLines.Perm s.script.allLines) :
    StoreInv t where
  canonical := hs ▸ h.canonical
  numbered := hs ▸ h.numbered
  placed := hs ▸ (hl.append_left _).trans h.placed
  held := hs ▸ h.held
  threshold := hs ▸ h.threshold

/-- A new threshold (R184). -/
theorem StoreInv.of_threshold (h : StoreInv s) {th : Nat} {a : Bool} (hth : th ≤ 8192)
    (hs : t.store = { s.store with threshold := th, armed := a }) (hk : t.script = s.script) : StoreInv t where
  canonical := by rw [hs]; exact h.canonical
  numbered := by rw [hs]; exact h.numbered
  placed := by rw [hs, hk]; exact h.placed
  held := by rw [hs]; exact h.held
  threshold := by rw [hs]; exact hth

theorem writeBlock_numbered {bs : List (Nat × LineBlock)} {n : Nat} {x : LineBlock} (h : ∀ c ∈ bs, c.1 < Config.blocks)
    (hn : n < Config.blocks) : ∀ c ∈ writeBlock bs n x, c.1 < Config.blocks := fun c hc => by
  obtain hc | ⟨rfl, -⟩ := mem_writeBlock hc
  · exact h c hc
  · exact hn

/-- A block taken from the pool joins a line list (R7). -/
theorem StoreInv.of_taken (h : StoreInv s) {n : Nat} {rest : List Nat} {r : LineRecord}
    (hp : s.store.pool = n :: rest) (hs : t.store = (blockTaken s n rest r).store)
    (hl : t.script.allLines.Perm (n :: s.script.allLines)) : StoreInv t := by
  have hpool : t.store.pool = rest := by rw [hs, blockTaken_store]
  have hn : n < Config.blocks := h.inRange (by simp [hp])
  have hrest : n ∉ rest := by
    have := h.nodup
    rw [hp, List.cons_append, List.nodup_cons] at this
    exact fun hm => this.1 (List.mem_append_left _ hm)
  refine ⟨?_, ?_, ?_, fun m hm => ?_, ?_⟩
  · rw [hs, blockTaken_store]; exact writeBlock_wf _ _ h.canonical
  · rw [hs, blockTaken_store]; exact writeBlock_numbered h.numbered hn
  · have hplaced := h.placed
    rw [hp] at hplaced
    rw [hpool]
    exact ((hl.append_left rest).trans List.perm_middle).trans hplaced
  · rw [hs, blockTaken_read s h.canonical, ← hs, hpool]
    split
    · next e => subst e; simpa using hrest
    · next e => rw [h.held m hm, hp, List.mem_cons]; simp [e]
  · rw [hs, blockTaken_store]; exact h.threshold

/-- A run of lines goes back to the pool (R8). -/
theorem StoreInv.of_returned (h : StoreInv s) {run : List Nat} (hs : t.store = (returnRun run s).store)
    (hl : s.script.allLines.Perm (t.script.allLines ++ run)) : StoreInv t := by
  have hpool : t.store.pool = s.store.pool ++ run := by rw [hs, returnRun_store]
  have hsub : ∀ m ∈ run, m ∈ s.script.allLines := fun m hm => hl.mem_iff.2 (List.mem_append_right _ hm)
  have hnd : run.Nodup := ((hl.nodup_iff.1 (List.nodup_append.1 h.nodup).2.1).sublist (List.sublist_append_right _ _))
  have hn : ∀ m ∈ run, m < Config.blocks := fun m hm => h.inRange (List.mem_append_right _ (hsub m hm))
  refine ⟨hs ▸ returnRun_wf run h.canonical, ?_, ?_, fun m hm => ?_, ?_⟩
  · rw [hs, returnRun_store]
    have hf : ∀ (l : List Nat) (x : TextStore), (∀ m ∈ l, m < Config.blocks) → (∀ c ∈ x.blocks, c.1 < Config.blocks) →
        ∀ c ∈ (l.foldl TextStore.returnOne x).blocks, c.1 < Config.blocks := fun l => by
      induction l with
      | nil => exact fun _ _ hx => hx
      | cons m l ih =>
        intro x hl hx
        exact ih _ (fun a ha => hl a (List.mem_cons_of_mem _ ha)) (writeBlock_numbered hx (hl m List.mem_cons_self))
    exact hf run s.store hn h.numbered
  · rw [hpool, List.append_assoc]
    exact ((List.perm_append_comm.trans hl.symm).append_left _).trans h.placed
  · rw [hs, returnRun_read s hnd h.canonical, ← hs, hpool, List.mem_append]
    split
    · next e => simp [e]
    · next e => rw [h.held m hm]; simp [e]
  · rw [hs, returnRun_store]; exact h.threshold

/-- A block of a line list is rewritten in its place (R9). -/
theorem StoreInv.of_rewritten (h : StoreInv s) {n : Nat} {r : LineRecord} (hn : n ∈ s.script.allLines)
    (hs : t.store = (rewriteBlock n r s).store) (hl : t.script.allLines.Perm s.script.allLines) : StoreInv t := by
  have hpool : t.store.pool = s.store.pool := by rw [hs]; rfl
  refine ⟨hs ▸ rewriteBlock_wf n r h.canonical, ?_, ?_, fun m hm => ?_, ?_⟩
  · rw [hs]; exact writeBlock_numbered h.numbered (h.inRange (List.mem_append_right _ hn))
  · rw [hpool]; exact (hl.append_left _).trans h.placed
  · rw [hs, rewriteBlock_read s h.canonical, ← hs, hpool]
    split
    · next e =>
      subst e
      simpa using fun hp => (List.nodup_append.1 h.nodup).2.2 _ hp _ hn rfl
    · exact h.held m hm
  · rw [hs]; exact h.threshold

end storeInv

/-! ### The Script Table's own facts (R17, R24, R29) -/

/-- What `ScriptInv` says of one story by itself. -/
structure Story.Sound (y : Story) : Prop where
  free : y.state = .free → y = Story.free
  lines : y.lines.length ≤ y.limit
  limit : y.limit ≤ 1023
  slug : y.slug.length ≤ 16
  airFrames : y.airFrames ≤ 65535

theorem Story.free_sound : Story.free.Sound := ⟨fun _ => rfl, by decide, by decide, by decide, by decide⟩

section scriptInv
variable {t t' : ScriptTable} {k : Slot} {y : Story}

theorem ScriptInv.sound (h : ScriptInv t) (k : Slot) : t.stories[k].Sound :=
  ⟨h.freeValues k, (h.limits k).1, (h.limits k).2, h.slugs k, h.airFrames k⟩

/-- The facts of a script, from those of its stories, its load and its order. -/
theorem ScriptInv.of_sound (hs : ∀ k : Slot, t.stories[k].Sound) (hl : ∀ k : Slot, t.stories[k].state = .loading ↔ t.load = some k)
    (hd : (t.order.map (·.slot)).Nodup) (hp : ∀ e ∈ t.order, t.stories[e.slot].state ≠ .free) : ScriptInv t :=
  ⟨fun k => (hs k).free, hl, hd, hp, fun k => ⟨(hs k).lines, (hs k).limit⟩, fun k => (hs k).slug,
    fun k => (hs k).airFrames⟩

theorem ScriptInv.of_kin (h : ScriptInv t) (hk : Kin t t') : ScriptInv t' := by
  refine .of_sound (fun k => ?_) (fun k => ?_) ?_ ?_
  · rw [hk.stories]; exact h.sound k
  · rw [hk.stories, hk.load]; exact h.loading k
  · rw [hk.order]; exact h.distinct
  · rw [hk.order, hk.stories]; exact h.placedStories

/-- A story written with the state it had. -/
theorem ScriptInv.of_wrote (h : ScriptInv t) (hw : Wrote t k y t') (hy : y.Sound)
    (hs : y.state = t.stories[k].state) : ScriptInv t' := by
  have hst (j : Slot) : t'.stories[j].state = t.stories[j].state := by
    by_cases hj : j = k
    · subst hj; rw [hw.self, hs]
    · rw [hw.other hj]
  refine .of_sound (fun j => ?_) (fun j => ?_) ?_ (fun e he => ?_)
  · by_cases hj : j = k
    · subst hj; rw [hw.self]; exact hy
    · rw [hw.other hj]; exact h.sound j
  · rw [hst, hw.load]; exact h.loading j
  · rw [hw.order]; exact h.distinct
  · rw [hst]; exact h.placedStories e (hw.order ▸ he)

/-- A story that changes its state: the open load follows it, and it leaves the order where it becomes FREE. -/
theorem ScriptInv.of_turned (h : ScriptInv t) {load : Option Slot} {order : List Entry} (hy : y.Sound)
    (hk : y.state = .loading ↔ load = some k) (hl : ∀ j, j ≠ k → (t.load = some j ↔ load = some j))
    (ho : order.Sublist t.order) (hf : y.state = .free → ∀ e ∈ order, e.slot ≠ k) :
    ScriptInv { t.withStory k y with load := load, order := order } := by
  have self : ({ t.withStory k y with load := load, order := order } : ScriptTable).stories[k] = y := withStory_self t k y
  have other {j : Slot} (hj : j ≠ k) :
      ({ t.withStory k y with load := load, order := order } : ScriptTable).stories[j] = t.stories[j] :=
    withStory_other t y hj
  refine .of_sound (fun j => ?_) (fun j => ?_) (h.distinct.sublist (ho.map _)) (fun e he => ?_)
  · by_cases hj : j = k
    · subst hj; rw [self]; exact hy
    · rw [other hj]; exact h.sound j
  · by_cases hj : j = k
    · subst hj; rw [self]; exact hk
    · rw [other hj, h.loading j]; exact hl j hj
  · by_cases hj : e.slot = k
    · subst hj; rw [self]; exact fun hfree => hf hfree e he rfl
    · rw [other hj]; exact h.placedStories e (ho.subset he)

/-- A new order of entries that name no FREE slot, each slot once. -/
theorem ScriptInv.of_order (h : ScriptInv t) {order : List Entry} (hd : (order.map (·.slot)).Nodup)
    (hp : ∀ e ∈ order, t.stories[e.slot].state ≠ .free) : ScriptInv { t with order := order } :=
  .of_sound h.sound h.loading hd hp

end scriptInv
end Sys2Proof.Machine

namespace Sys2Proof.Machine

/-! ### The store and the script under resets (R16, R41, R63, R187) -/

/-- A block under a SCRIPT or ALL reset: returned, with a new generation, where it was in use (R16). -/
def LineBlock.returned (x : LineBlock) : LineBlock :=
  if x.record.isSome then { gen := x.gen + 1, record := none } else x

@[simp] theorem LineBlock.returned_record (x : LineBlock) : x.returned.record = none := by
  unfold LineBlock.returned
  split
  · rfl
  · next h => simpa using h

theorem blockAt_map (f : LineBlock → LineBlock) (hf : f .blank = .blank) (bs : List (Nat × LineBlock)) (n : Nat) :
    blockAt (bs.map (fun c => (c.1, f c.2))) n = f (blockAt bs n) := by
  induction bs with
  | nil => exact hf.symm
  | cons c bs ih =>
    simp only [List.map_cons, blockAt, ih]
    split <;> rfl

/-- A power-on value that is listed reads as one that is not. -/
theorem blockAt_filter {bs : List (Nat × LineBlock)} (h : bs.Pairwise (fun a b => a.1 < b.1)) (n : Nat) :
    blockAt (bs.filter (fun c => c.2 ≠ .blank)) n = blockAt bs n := by
  induction bs with
  | nil => rfl
  | cons c bs ih =>
    obtain ⟨hc, hs⟩ := List.pairwise_cons.1 h
    by_cases hb : c.2 = .blank
    · simp only [List.filter_cons, hb, ne_eq, not_true_eq_false, decide_false, Bool.false_eq_true, if_false, ih hs, blockAt]
      split
      · next e => exact blockAt_absent fun d hd => e ▸ hc d hd
      · rfl
    · simp only [List.filter_cons, hb, ne_eq, not_false_eq_true, decide_true, if_true, blockAt, ih hs]

theorem scriptReset_blocks (t : TextStore) (all : Bool) : (t.scriptReset all).blocks =
    (t.blocks.map (fun c => (c.1, c.2.returned))).filter (fun c => c.2 ≠ .blank) := by
  simp only [TextStore.scriptReset]
  congr 2
  funext c
  unfold LineBlock.returned
  split <;> rfl

/-- Every block under a SCRIPT or ALL reset (R16). -/
theorem scriptReset_read {t : TextStore} (all : Bool) (h : BlocksWf t.blocks) (n : Nat) :
    (t.scriptReset all).read n = (t.read n).returned := by
  have hs : (t.blocks.map (fun c => (c.1, c.2.returned))).Pairwise (fun a b => a.1 < b.1) := List.pairwise_map.2 h.1
  unfold TextStore.read
  rw [scriptReset_blocks, blockAt_filter hs, blockAt_map _ (by rfl)]

@[simp] theorem reset_allLines : ScriptTable.reset.allLines = [] := by
  simp [ScriptTable.allLines, ScriptTable.reset, Story.free]

/-- A store with every block free, and a script without stories. -/
theorem StoreInv.of_cleared {s : State} (hw : BlocksWf s.store.blocks) (hn : ∀ c ∈ s.store.blocks, c.1 < Config.blocks)
    (hp : s.store.pool = List.range Config.blocks) (hr : ∀ n, (s.store.read n).record = none)
    (ht : s.store.threshold ≤ Config.blocks) (hs : s.script = .reset) : StoreInv s where
  canonical := hw
  numbered := hn
  placed := by rw [hp, hs, reset_allLines, List.append_nil]
  held n hlt := by simp [hr n, hp, hlt]
  threshold := ht

theorem reset_storeInv : StoreInv State.reset :=
  .of_cleared reset_wf (fun _ h => by cases h) (by simp only [State.reset, State.powerOn, TextStore.reset])
    (fun _ => rfl) (by decide) rfl

theorem ScriptInv.of_cleared : ScriptInv ScriptTable.reset := by
  have hf (k : Slot) : ScriptTable.reset.stories[k] = Story.free := by simp [ScriptTable.reset]
  refine .of_sound (fun k => ?_) (fun k => ?_) List.nodup_nil (fun _ he => by cases he)
  · rw [hf]; exact Story.free_sound
  · rw [hf]; exact ⟨nofun, nofun⟩

/-! ### What the requests of the script alone make of it -/

section script
variable {s t : State} {b : List Byte}

theorem openStory_inv (h : (openStory b s).state = t) : t = s ∨
    ∃ k limit access, s.script.stories[k].state = .free ∧ s.script.load = none ∧ limit ≤ 1023 ∧
      slugOk (slugOf b) = true ∧
      t = s.withScript { s.script.withStory k (.opening limit access (slugOf b)) with load := some k } := by
  obtain rfl | ⟨k, -, h⟩ := withSlot_inv h
  · exact .inl rfl
  dsimp only at h
  split at h
  · exact .inl h.symm
  · next access _ =>
    split at h
    · exact .inl h.symm
    · next hr =>
      split at h
      · exact .inl h.symm
      · next hs =>
        simp only [not_or, Nat.not_lt, Bool.not_eq_true', Bool.not_eq_false] at hr
        simp only [not_or, ne_eq, not_not, Bool.not_eq_true, Option.isSome_eq_false_iff, Option.isNone_iff_eq_none] at hs
        exact .inr ⟨k, u16 b 1, access, hs.1, hs.2, hr.2.1, hr.2.2, h.symm⟩

theorem closeCommit_inv (h : (closeCommit b s).state = t) : t = s ∨
    ∃ k, s.script.load = some k ∧ t.store = s.store ∧
      t.script = { s.script.withStory k { s.script.stories[k] with state := .ready } with load := none } := by
  unfold closeCommit at h
  split at h
  · exact .inl h.symm
  · split at h
    · exact .inl h.symm
    · next k hk => subst h; exact .inr ⟨k, hk, rfl, rfl⟩

/-- A Designation airs a READY story, or changes nothing (R20). -/
theorem designation_inv (k : Slot) (s : State) : Kin s.script (designation k s).script ∨
    s.script.stories[k].state = .ready ∧
      Wrote s.script k { s.script.stories[k] with aired := true } (designation k s).script := by
  unfold designation
  dsimp only
  split
  · next h => exact .inr ⟨h.1, rfl, rfl, rfl⟩
  · exact .inl .rfl

/-- An Air Frame report counts one frame for a READY story, or changes nothing (R23). -/
theorem airFrame_inv (k : Slot) (s : State) : Kin s.script (airFrame k s).script ∨
    s.script.stories[k].state = .ready ∧
      Wrote s.script k
        { s.script.stories[k] with airFrames := min (s.script.stories[k].airFrames + 1) 65535 }
        (airFrame k s).script := by
  unfold airFrame
  dsimp only
  split
  · next h => exact .inr ⟨h, wrote_withStory⟩
  · exact .inl .rfl

/-- The Live Slot check airs at most the story it names, once the engine has taken the reports that wait (R21). -/
theorem liveSlotCheck_wrote (k : Slot) (s : State) :
    ∃ a, Wrote s.script k { s.script.stories[k] with aired := a } (liveSlotCheck k s).script := by
  have hr : (takeReports s).script = s.script := same_takeReports.script (by decide)
  unfold liveSlotCheck
  dsimp only
  split
  · rw [← hr]
    obtain h | ⟨-, h⟩ := designation_inv k (takeReports s)
    · exact ⟨_, h.wrote k⟩
    · exact ⟨true, h⟩
  · rw [hr]; exact ⟨s.script.stories[k].aired, Kin.rfl.wrote k⟩

theorem setStory_inv (h : (setStory b s).state = t) : t = s ∨
    ∃ k access limit slug a, s.script.stories[k].lines.length ≤ limit ∧ limit ≤ 1023 ∧ slugOk slug = true ∧
      s.script.stories[k].state = .ready ∧ t.store = s.store ∧
      Wrote s.script k
        { s.script.stories[k] with
          access := access, limit := limit, slug := slug, aired := a, changed := false, airFrames := 0 } t.script := by
  have hstore : t.store = s.store := h ▸ (same_setStory b).store (by decide)
  obtain rfl | ⟨k, -, h⟩ := withSlot_inv h
  · exact .inl rfl
  dsimp only at h
  split at h
  · exact .inl h.symm
  · next access _ =>
    split at h
    · exact .inl h.symm
    · next hr =>
      split at h
      · exact .inl h.symm
      · exact .inl h.symm
      · next hs =>
        simp only [not_or, Nat.not_lt, Bool.not_eq_true', Bool.not_eq_false] at hr
        subst h
        obtain ⟨a, hw⟩ := liveSlotCheck_wrote k (changeScript [] k (s.script.withStory k
          { s.script.stories[k] with
            access := access, limit := u16 b 2, slug := slugOf b, aired := false, changed := false, airFrames := 0 }) s)
        rw [changeScript_script, withStory_self] at hw
        exact .inr ⟨k, access, _, _, a, hr.2.2.1, hr.2.1, hr.2.2.2, hs, hstore, wrote_withStory.trans hw⟩

end script
end Sys2Proof.Machine

namespace Sys2Proof.Machine

/-! ### Every step keeps the store and the script (R1, R5, R6, R17, R29) -/

/-- What O14 keeps of a part. -/
abbrev TextInv (s : State) : Prop := StoreInv s ∧ ScriptInv s.script

section keeps
variable {s t : State} {b : List Byte}

theorem SameText.inv (h : SameText s t) (hi : TextInv s) : TextInv t :=
  ⟨hi.1.of_same h.store (h.script ▸ .rfl), h.script ▸ hi.2⟩

theorem Unwritten.inv (h : Unwritten s t) (hi : TextInv s) : TextInv t :=
  ⟨hi.1.of_same h.store (by rw [ScriptTable.allLines, h.script.stories]; rfl), hi.2.of_kin h.script⟩

/-- A story of the script written with the lines and the state it had. -/
theorem Wrote.inv {k : Slot} {y : Story} (hw : Wrote s.script k y t.script) (hi : TextInv s) (hs : t.store = s.store)
    (hy : y.Sound) (hl : y.lines = s.script.stories[k].lines) (hst : y.state = s.script.stories[k].state) : TextInv t :=
  ⟨hi.1.of_same hs (hw.allLines_kept hl), hi.2.of_wrote hw hy hst⟩

/-- A change of the order alone. -/
theorem order_inv {order : List Entry} (hi : TextInv s) (hs : t.store = s.store)
    (ht : t.script = { s.script with order := order }) (hd : (order.map (·.slot)).Nodup)
    (hp : ∀ e ∈ order, s.script.stories[e.slot].state ≠ .free) : TextInv t :=
  ⟨hi.1.of_same hs (by rw [ht]; rfl), ht ▸ hi.2.of_order hd hp⟩

/-! A story keeps what `ScriptInv` says of it by itself -/

theorem Story.Sound.withChanged {y : Story} (h : y.Sound) (hs : y.state ≠ .free) (c : Bool) :
    ({ y with changed := c } : Story).Sound :=
  ⟨fun e => absurd e hs, h.lines, h.limit, h.slug, h.airFrames⟩

theorem Story.Sound.withLines {y : Story} (h : y.Sound) (hs : y.state ≠ .free) {ls : List Nat} (c : Bool)
    (hl : ls.length ≤ y.limit) : ({ y with changed := c, lines := ls } : Story).Sound :=
  ⟨fun e => absurd e hs, hl, h.limit, h.slug, h.airFrames⟩

theorem Story.opening_sound {limit : Nat} {access : Access} {slug : List Byte} (hl : limit ≤ 1023)
    (hs : slugOk slug = true) : (Story.opening limit access slug).Sound := by
  simp only [slugOk, Bool.and_eq_true, decide_eq_true_eq] at hs
  exact ⟨nofun, Nat.zero_le _, hl, hs.1, Nat.zero_le _⟩

/-! Stories and the load (R24 to R27, R36, R37) -/

theorem openStory_keeps (hi : TextInv s) : TextInv (openStory b s).state := by
  obtain h | ⟨k, limit, access, hf, hn, hl, hs, h⟩ := openStory_inv (b := b) (s := s) rfl
  · rw [h]; exact hi
  rw [h]
  refine ⟨hi.1.of_same rfl ?_, hi.2.of_turned (Story.opening_sound hl hs) ?_ (fun j hj => ?_) (List.Sublist.refl _) nofun⟩
  · refine (wrote_withStory (y := .opening limit access (slugOf b))).allLines_kept ?_
    rw [hi.2.freeValues k hf]; rfl
  · exact ⟨fun _ => rfl, fun _ => rfl⟩
  · rw [hn]; simpa using hj.symm

theorem appendLine_keeps (hi : TextInv s) : TextInv (appendLine b s).state := by
  obtain h | ⟨k, n, rest, r, hk, hl, hp, hs, hw⟩ := appendLine_inv (b := b) (s := s) rfl
  · exact h.inv hi
  have hst : s.script.stories[k].state = .loading := (hi.2.loading k).2 hk
  have hy := hi.2.sound k
  refine ⟨hi.1.of_taken hp hs (hw.allLines_joined List.perm_append_comm), hi.2.of_wrote hw ?_ rfl⟩
  exact hy.withLines (hst ▸ nofun) _ (by
    have := hy.lines
    rw [List.length_append, List.length_singleton]
    omega)

theorem closeCommit_keeps (hi : TextInv s) : TextInv (closeCommit b s).state := by
  obtain h | ⟨k, hk, hs, h⟩ := closeCommit_inv (b := b) (s := s) rfl
  · rw [h]; exact hi
  have hy := hi.2.sound k
  refine ⟨hi.1.of_same hs ?_, ?_⟩
  · rw [h]
    exact (wrote_withStory (y := { s.script.stories[k] with state := .ready })).allLines_kept rfl
  · rw [h]
    refine hi.2.of_turned (order := s.script.order) ⟨nofun, hy.lines, hy.limit, hy.slug, hy.airFrames⟩ ⟨nofun, nofun⟩
      (fun j hj => ?_) (List.Sublist.refl _) nofun
    rw [hk]; simpa using hj.symm

/-- A story whose lines have gone back to the pool takes its FREE values (R27, R36). -/
theorem freed_keeps {k : Slot} {load : Option Slot} {order : List Entry} (hi : TextInv s)
    (hs : t.store = (returnRun s.script.stories[k].lines s).store)
    (ht : t.script.stories = s.script.stories.set k.val Story.free k.isLt) (hto : t.script.order = order)
    (htl : t.script.load = load) (hk : load ≠ some k) (hl : ∀ j, j ≠ k → (s.script.load = some j ↔ load = some j))
    (ho : order.Sublist s.script.order) (hf : ∀ e ∈ order, e.slot ≠ k) : TextInv t := by
  have hw : Wrote s.script k Story.free (s.script.withStory k Story.free) := wrote_withStory
  refine ⟨hi.1.of_returned hs ?_, ?_⟩
  · rw [ScriptTable.allLines.eq_def t.script, ht]
    exact hw.allLines_left (.refl _)
  · exact (hi.2.of_turned Story.free_sound ⟨nofun, fun e => absurd e hk⟩ hl ho fun _ => hf).of_kin ⟨ht, hto, htl⟩

theorem closeAbandon_keeps (hi : TextInv s) : TextInv (closeAbandon b s).state := by
  obtain h | ⟨k, hk, hs, h⟩ := closeAbandon_inv (b := b) (s := s) rfl
  · exact h.inv hi
  refine freed_keeps hi hs (congrArg (·.stories) h) (congrArg (·.order) h) (congrArg (·.load) h) nofun (fun j hj => ?_)
    List.filter_sublist fun e he => ?_
  · rw [hk]; simpa using hj.symm
  · simpa using (List.mem_filter.1 he).2

theorem freeStory_keeps (hi : TextInv s) : TextInv (freeStory b s).state := by
  obtain h | ⟨k, -, hr, he, hs, hw⟩ := freeStory_inv (b := b) (s := s) rfl
  · exact h.inv hi
  refine freed_keeps hi hs hw.stories hw.order hw.load (fun e => ?_) (fun _ _ => .rfl) (List.Sublist.refl _) ?_
  · rw [(hi.2.loading k).2 e] at hr; cases hr
  · simpa [ScriptTable.entryIndex] using he

theorem setStory_keeps (hi : TextInv s) : TextInv (setStory b s).state := by
  obtain h | ⟨k, access, limit, slug, a, hle, hl, hg, hr, hs, hw⟩ := setStory_inv (b := b) (s := s) rfl
  · rw [h]; exact hi
  simp only [slugOk, Bool.and_eq_true, decide_eq_true_eq] at hg
  exact hw.inv hi hs ⟨fun e => absurd (hr.symm.trans e) nofun, hle, hl, hg.1, Nat.zero_le _⟩ rfl rfl

/-! The running order (R32 to R35) -/

theorem insertEntry_perm (es : List Entry) (i : Nat) (e : Entry) : (insertEntry es i e).Perm (e :: es) := by
  unfold insertEntry
  simpa using List.perm_middle (a := e) (l₁ := es.take i) (l₂ := es.drop i)

theorem placeEntry_keeps (hi : TextInv s) : TextInv (placeEntry b s).state := by
  generalize ht : (placeEntry b s).state = t
  obtain rfl | ⟨k, -, h⟩ := withSlot_inv ht
  · exact hi
  dsimp only at h
  split at h
  · exact h ▸ hi
  split at h
  · exact h ▸ hi
  next hf =>
  split at h
  · exact h ▸ hi
  next he =>
  have hp := insertEntry_perm s.script.order (u8 b 1) { slot := k, floated := false }
  have hno : ∀ e ∈ s.script.order, e.slot ≠ k := by simpa [ScriptTable.entryIndex] using he
  subst h
  refine order_inv hi rfl rfl ((hp.map _).nodup_iff.2 ?_) fun e hm => ?_
  · rw [List.map_cons, List.nodup_cons]
    exact ⟨by simpa using hno, hi.2.distinct⟩
  · obtain rfl | hm := List.mem_cons.1 (hp.mem_iff.1 hm)
    · exact hf
    · exact hi.2.placedStories e hm

/-- An order with the same entries. -/
theorem order_perm_inv {order : List Entry} (hi : TextInv s) (hs : t.store = s.store)
    (ht : t.script = { s.script with order := order }) (hp : order.Perm s.script.order) : TextInv t :=
  order_inv hi hs ht ((hp.map _).nodup_iff.2 hi.2.distinct) fun e he => hi.2.placedStories e (hp.mem_iff.1 he)

theorem moveEntry_keeps (hi : TextInv s) : TextInv (moveEntry b s).state := by
  unfold moveEntry
  dsimp only
  split
  · exact hi
  next e he =>
  split
  · exact hi
  split
  · exact hi
  obtain ⟨hlt, rfl⟩ := List.getElem?_eq_some_iff.1 he
  exact order_perm_inv hi rfl rfl ((insertEntry_perm _ _ _).trans (List.getElem_cons_eraseIdx_perm hlt))

theorem removeEntry_keeps (hi : TextInv s) : TextInv (removeEntry b s).state := by
  unfold removeEntry
  dsimp only
  split
  · exact hi
  have hsub := List.eraseIdx_sublist s.script.order (u8 b 0)
  exact order_inv hi rfl rfl (hi.2.distinct.sublist (hsub.map _)) fun e he => hi.2.placedStories e (hsub.subset he)

theorem floatEntry_keeps (hi : TextInv s) : TextInv (floatEntry b s).state := by
  unfold floatEntry
  dsimp only
  split
  next e on he _ =>
    split
    · exact hi
    obtain ⟨hlt, rfl⟩ := List.getElem?_eq_some_iff.1 he
    refine order_inv hi rfl rfl ?_ fun x hm => ?_
    · rw [List.map_set, show ({ s.script.order[u8 b 0] with floated := on } : Entry).slot =
        (s.script.order.map (·.slot))[u8 b 0]'(by simpa using hlt) by simp, List.set_getElem_self]
      exact hi.2.distinct
    · obtain hm | rfl := List.mem_or_eq_of_mem_set hm
      · exact hi.2.placedStories x hm
      · exact hi.2.placedStories s.script.order[u8 b 0] (List.getElem_mem hlt)
  · exact hi

/-! Editing on air and the threshold (R47 to R49, R59, R184) -/

theorem insertLine_keeps (hi : TextInv s) : TextInv (insertLine b s).state := by
  obtain h | ⟨k, n, rest, r, i, c, hr, hl, hp, hs, hw⟩ := insertLine_inv (b := b) (s := s) rfl
  · exact h.inv hi
  have hy := hi.2.sound k
  have hperm : (insertLineAt s.script.stories[k].lines i n).Perm (n :: s.script.stories[k].lines) := by
    unfold insertLineAt
    simpa using List.perm_middle (a := n) (l₁ := s.script.stories[k].lines.take i)
      (l₂ := s.script.stories[k].lines.drop i)
  refine ⟨hi.1.of_taken hp hs (hw.allLines_joined hperm), hi.2.of_wrote hw (hy.withLines (hr ▸ nofun) _ ?_) rfl⟩
  have := hy.lines
  rw [hperm.length_eq, List.length_cons]
  omega

theorem replaceLine_keeps (hi : TextInv s) : TextInv (replaceLine b s).state := by
  obtain h | ⟨k, n, r, c, -, hn, hs, hw⟩ := replaceLine_inv (b := b) (s := s) rfl
  · exact h.inv hi
  have hm : n ∈ s.script.stories[k].lines := List.mem_of_getElem? hn
  have hf : s.script.stories[k].state ≠ .free := fun e => by
    rw [hi.2.freeValues k e] at hm; cases hm
  exact ⟨hi.1.of_rewritten (mem_allLines hm) hs (hw.allLines_kept rfl),
    hi.2.of_wrote hw ((hi.2.sound k).withChanged hf c) rfl⟩

theorem deleteLines_keeps (hi : TextInv s) : TextInv (deleteLines b s).state := by
  obtain h | ⟨k, c, -, hr, hs, hw⟩ := deleteLines_inv (b := b) (s := s) rfl
  · exact h.inv hi
  have hy := hi.2.sound k
  have hperm (ls : List Nat) (i n : Nat) : ls.Perm ((ls.take i ++ ls.drop (i + n)) ++ (ls.drop i).take n) := by
    conv_lhs => rw [← List.take_append_drop i ls, ← List.take_append_drop n (ls.drop i), List.drop_drop]
    rw [List.append_assoc]
    exact List.perm_append_comm.append_left _
  refine ⟨hi.1.of_returned hs (hw.allLines_left (hperm _ _ _)), hi.2.of_wrote hw (hy.withLines (hr ▸ nofun) _ ?_) rfl⟩
  refine le_trans ?_ hy.lines
  rw [List.length_append, List.length_take, List.length_drop]
  omega

theorem clearFault_keeps (hi : TextInv s) : TextInv (clearFault b s).state :=
  Unwritten.inv (s := s) ⟨rfl, rfl, rfl, rfl⟩ hi

theorem setNotices_keeps (hi : TextInv s) : TextInv (setNotices b s).state := by
  obtain h | ⟨th, hth, hs, hk⟩ := setNotices_inv (b := b) (s := s) rfl
  · exact h.inv hi
  · exact ⟨hi.1.of_threshold hth hs hk, hk ▸ hi.2⟩

/-! On-air history (R20, R23) -/

theorem designation_keeps (k : Slot) (hi : TextInv s) : TextInv (designation k s) := by
  have hs : (designation k s).store = s.store := (same_designation k).store (by decide)
  obtain h | ⟨hr, hw⟩ := designation_inv k s
  · exact Unwritten.inv ⟨hs, h⟩ hi
  · have hy := hi.2.sound k
    exact hw.inv hi hs ⟨fun e => absurd (hr.symm.trans e) nofun, hy.lines, hy.limit, hy.slug, hy.airFrames⟩ rfl rfl

theorem airFrame_keeps (k : Slot) (hi : TextInv s) : TextInv (airFrame k s) := by
  have hs : (airFrame k s).store = s.store := (same_airFrame k).store (by decide)
  obtain h | ⟨hr, hw⟩ := airFrame_inv k s
  · exact Unwritten.inv ⟨hs, h⟩ hi
  · have hy := hi.2.sound k
    exact hw.inv hi hs ⟨fun e => absurd (hr.symm.trans e) nofun, hy.lines, hy.limit, hy.slug, min_le_right _ _⟩ rfl rfl

/-! Resets (R16, R41, R187) -/

theorem powerOn_inv (rate : Nat) : TextInv (State.powerOn rate) :=
  SameText.inv (s := State.reset) ⟨rfl, rfl⟩ ⟨reset_storeInv, .of_cleared⟩

theorem scriptReset_numbered {x : TextStore} (all : Bool) (h : ∀ c ∈ x.blocks, c.1 < Config.blocks) :
    ∀ c ∈ (x.scriptReset all).blocks, c.1 < Config.blocks := fun c hc => by
  rw [scriptReset_blocks] at hc
  obtain ⟨d, hd, rfl⟩ := List.mem_map.1 (List.mem_filter.1 hc).1
  exact h d hd

/-- The blocks and the script under a scope, before the other blocks take their parts. -/
theorem resetScript_keeps (x : Scope) (hi : TextInv s) : TextInv (resetScript x (resetStore x s)) := by
  by_cases hx : x.hitsScript = true
  · simp only [resetScript, resetStore, hx, if_true]
    refine ⟨.of_cleared (scriptReset_wf _ hi.1.canonical) (scriptReset_numbered _ hi.1.numbered) ?_ (fun n => ?_) ?_ rfl,
      .of_cleared⟩
    · simp only [State.withScript_store, State.withStore_store, TextStore.scriptReset]
    · exact (congrArg (·.record) (scriptReset_read _ hi.1.canonical n)).trans (LineBlock.returned_record _)
    · show (if x.all = true then 256 else s.store.threshold) ≤ Config.blocks
      split
      · decide
      · exact hi.1.threshold
  · simpa [resetScript, resetStore, hx] using hi

theorem sameText_resetCues (x : Scope) : SameText s (resetCues x s) := by
  have hall : SameText s (resetCuesAll s) := by
    unfold resetCuesAll
    dsimp only
    have h1 : SameText s (if 0 < s.cues.flashCount then sendFlash false (s.withCues .reset) else s.withCues .reset) :=
      .ite ((same_withCues _).text.trans (same_sendFlash _).text) (same_withCues _).text
    exact .ite (h1.trans (same_sendCueFlag _).text) h1
  have hmotion : SameText s (resetCuesMotion s) := (same_withCues _).text.trans (same_setQueue _).text
  unfold resetCues
  dsimp only
  have h1 : SameText s (if x.motion = true then resetCuesMotion s else s) := .ite hmotion .rfl
  exact .ite hall (.ite (h1.trans (same_setQueue _).text) h1)

/-- What the other blocks take under a scope, after the store and the script. -/
theorem sameText_resetRest (x : Scope) : SameText s
    (resetLink x (resetHeads x (resetCues x (resetPorts x (resetArbiter x (resetEngine x s)))))) := by
  have hengine : SameText s (resetEngine x s) :=
    .ite (.ite (same_withEngine _).text ((same_withEngine _).text.trans (same_raise _).text)) .rfl
  have harbiter {u : State} : SameText u (resetArbiter x u) := .ite (same_arbiterEvent _).text .rfl
  have hports {u : State} : SameText u (resetPorts x u) := .ite ⟨rfl, rfl⟩ .rfl
  have hheads {u : State} : SameText u (resetHeads x u) := .ite ⟨rfl, rfl⟩ .rfl
  have hlink {u : State} : SameText u (resetLink x u) :=
    .ite ⟨rfl, rfl⟩ ((same_withLinkOnly _).text.trans sameText_transmitNext)
  exact ((((hengine.trans harbiter).trans hports).trans (sameText_resetCues x)).trans hheads).trans hlink

theorem takeReset_keeps (x : Scope) (hi : TextInv s) : TextInv (takeReset x s) := by
  have h1 : TextInv (resetClock x (finishCueWork s)) :=
    (sameText_finishCueWork.trans (.ite (same_withClock _).text .rfl)).inv hi
  exact (sameText_resetRest x).inv (resetScript_keeps x h1)

/-! The step -/

theorem runRequestIf_keeps {meant : Request → Bool} {owner : List Byte → State → Answer}
    (ho : ∀ {b u}, TextInv u → TextInv (owner b u).state) (hi : TextInv s) : TextInv (runRequestIf meant owner s) := by
  obtain h | ⟨r, rest, -, -, -, h⟩ := runRequestIf_text meant owner s
  · exact h.inv hi
  · exact h.inv (ho ((sameText_withCause true).inv hi))

theorem takeScriptMsg_keeps {want : ScriptMsg → Option Slot} {f : Slot → State → State}
    (hf : ∀ k {u}, TextInv u → TextInv (f k u)) (hi : TextInv s) : TextInv (takeScriptMsg want f s) := by
  unfold takeScriptMsg takeHead
  split
  · split
    · exact sameText_event.inv (hf _ (((same_withMail _).text.trans (sameText_withCause _)).inv hi))
    · exact hi
  · exact hi

/-- Every command keeps the store and the script. -/
theorem exec_keepsText (c : Instr) (hi : TextInv s) : Ends (exec c s) TextInv := by
  by_cases hc : .store ∉ touches c ∧ .script ∉ touches c
  · have h := exec_sameText (s := s) c hc.1 hc.2
    revert h
    cases exec c s with
    | next t => exact fun h => SameText.inv h hi
    | fault r => exact False.elim
    | refused r => exact False.elim
  cases c with
  | powerOnReset a b => exact SameText.inv (s := State.powerOn (rateOf a b)) ⟨rfl, rfl⟩ (powerOn_inv _)
  | resetTakesEffect =>
    show TextInv _
    split
    · split
      · exact sameText_event.inv (takeReset_keeps _ ((sameText_withCause _).inv hi))
      · exact hi
    · exact hi
  | openStory => exact runRequestIf_keeps openStory_keeps hi
  | appendLine => exact runRequestIf_keeps appendLine_keeps hi
  | closeStoryCommit => exact runRequestIf_keeps closeCommit_keeps hi
  | closeStoryAbandon => exact runRequestIf_keeps closeAbandon_keeps hi
  | freeStory => exact runRequestIf_keeps freeStory_keeps hi
  | setStory => exact runRequestIf_keeps setStory_keeps hi
  | placeEntry => exact runRequestIf_keeps placeEntry_keeps hi
  | moveEntry => exact runRequestIf_keeps moveEntry_keeps hi
  | removeEntry => exact runRequestIf_keeps removeEntry_keeps hi
  | floatEntry => exact runRequestIf_keeps floatEntry_keeps hi
  | insertLine => exact runRequestIf_keeps insertLine_keeps hi
  | replaceLine => exact runRequestIf_keeps replaceLine_keeps hi
  | deleteLines => exact runRequestIf_keeps deleteLines_keeps hi
  | clearFault => exact runRequestIf_keeps clearFault_keeps hi
  | setNotices => exact runRequestIf_keeps setNotices_keeps hi
  | designationReport => exact takeScriptMsg_keeps (fun k _ => designation_keeps k) hi
  | airFrameReport => exact takeScriptMsg_keeps (fun k _ => airFrame_keeps k) hi
  | _ => simp [touches] at hc

end keeps

/-- Settles O14: every command keeps the store and the script, and so does the passing of time. -/
theorem scriptAndStoreKept : Obligations.ScriptAndStoreKept := by
  intro s t hi h
  unfold step at h
  split at h
  · next c rest _ =>
    have hr : TextInv { s with pending := rest } := SameText.inv (s := s) ⟨rfl, rfl⟩ hi
    exact (exec_keepsText c hr).next h
  · split at h
    · next c _ => exact (exec_keepsText c hi).next h
    · cases h
      exact SameText.inv (s := s) ⟨rfl, rfl⟩ hi

end Sys2Proof.Machine

namespace Sys2Proof.Machine

/-! ### Query Store (R14) -/

/-- Settles O26: the owner answers with the three figures and leaves the part as it is. -/
theorem queryStore_answers : Obligations.QueryStore := by
  refine fun s => ⟨fun h => ?_, fun r rest hr hk hb ht => ?_⟩
  · exact congrArg Host.Outcome.next (runRequest_done h rfl rfl rfl rfl)
  · refine congrArg Host.Outcome.next (runRequestIf_malformed hr (by simp [hk]) ht ?_)
    simpa [hk, requestLength] using fun e => hb (List.length_eq_zero_iff.1 e.symm)

/-! ### Open Story and Append Line (R3, R4, R24, R25) -/

/-- The slug of an Open Story of the length its kind calls for: as many codes as its count says. -/
theorem openStory_slug {s : State} {body : List Byte} (h : Serving s 0x10 body) :
    (slugOf body).length = u8 body 4 := by
  have hf : 5 + u8 body 4 = body.length := by simpa [requestLength] using h.fits
  simp only [slugOf, List.length_drop]
  omega

theorem slugOk_iff (slug : List Byte) : slugOk slug = true ↔ slug.length ≤ 16 ∧ slug.all isTextCode = true := by
  simp [slugOk]

/-- A slot field in range names its slot. -/
theorem withSlot_slot {n : Nat} {k : Slot} (h : n = k.val) (s : State) (f : Slot → Answer) : withSlot n s f = f k := by
  subst h
  exact dif_pos k.isLt

theorem withSlot_range {n : Nat} (h : 64 ≤ n) (s : State) (f : Slot → Answer) : withSlot n s f = refuse .range s :=
  dif_neg (Nat.not_lt.2 h)

theorem openStory_claim : Claims.OpenStory := by
  intro s body h
  have hslug := openStory_slug h
  refine ⟨fun hr => ?_, fun k access hk ha h1 h2 h3 h4 => ⟨fun hst => ?_, fun hst hload => ?_⟩⟩
  · refine congrArg Host.Outcome.next (runRequest_refused h rfl ?_)
    unfold openStory
    by_cases h64 : 64 ≤ u8 body 0
    · exact withSlot_range h64 _ _
    · rw [withSlot_slot (k := ⟨u8 body 0, Nat.lt_of_not_le h64⟩) rfl]
      dsimp only
      split
      · rfl
      · next access ha =>
        have hno : u16 body 1 < 1 ∨ 1023 < u16 body 1 ∨ (!slugOk (slugOf body)) = true := by
          rw [Bool.not_eq_true', ← Bool.not_eq_true, slugOk_iff, hslug]
          simp only [h64, ha, reduceCtorEq, false_or] at hr
          rcases hr with e | e | e | e
          · omega
          · omega
          · exact .inr (.inr fun c => by omega)
          · exact .inr (.inr fun c => by simp [e] at c)
        rw [if_pos hno]
  all_goals
    have hok : ¬ (u16 body 1 < 1 ∨ 1023 < u16 body 1 ∨ (!slugOk (slugOf body)) = true) := by
      rw [Bool.not_eq_true', ← Bool.not_eq_true, slugOk_iff, hslug]
      exact fun c => by rcases c with e | e | e; omega; omega; exact e ⟨h3, h4⟩
  · refine congrArg Host.Outcome.next (runRequest_refused h rfl ?_)
    unfold openStory
    rw [withSlot_slot hk]
    simp only [ha, if_neg hok]
    exact if_pos (by simpa [Option.isSome_iff_ne_none] using hst)
  · refine congrArg Host.Outcome.next (runRequest_done h rfl (u := s.withScript _) ?_ rfl rfl)
    unfold openStory
    rw [withSlot_slot hk]
    simp only [ha, if_neg hok]
    rw [if_neg (by simpa [hload] using hst)]
    rfl

theorem appendLine_claim : Claims.AppendLine := by
  intro s body h
  refine ⟨fun hr => ?_, fun r hr => ⟨fun hl => ?_, fun k hk => ⟨fun hl => ?_, fun hl hp => ?_, fun n rest hl hp => ?_⟩⟩⟩
  · refine congrArg Host.Outcome.next (runRequest_refused h rfl ?_)
    simp only [appendLine, hr]
  · refine congrArg Host.Outcome.next (runRequest_refused h rfl ?_)
    simp only [appendLine, hr, State.withCause_script, hl]
  · refine congrArg Host.Outcome.next (runRequest_refused h rfl ?_)
    simp only [appendLine, hr, State.withCause_script, hk]
    exact if_pos hl
  · refine congrArg Host.Outcome.next (runRequest_refused h rfl ?_)
    simp only [appendLine, hr, State.withCause_script, hk, takeBlock_empty (s.withCause true) hp]
    exact if_neg hl
  · refine congrArg Host.Outcome.next (runRequest_done h rfl ?_ ?_ ?_)
    · simp only [appendLine, hr, State.withCause_script, hk, takeBlock_head (s := s.withCause true) hp]
      rw [if_neg hl, blockTaken_withCause]
      simp
      rfl
    · simp [blockTaken_link, apply_ite]
    · simp [blockTaken_link, apply_ite]

/-! The check of a record (R3, R4) -/

theorem isTextCode_iff (b : Byte) : isTextCode b = true ↔ (0x20 ≤ b.toNat ∧ b.toNat ≤ 0x7E) ∨ 0xA0 ≤ b.toNat := by
  simp [isTextCode]

theorem styleOfCode_eq (n : Nat) : Style.ofCode n =
    if n ≤ 2 then some (if n = 0 then .spoken else if n = 1 then .emphasis else .direction) else none := by
  match n with
  | 0 | 1 | 2 => rfl
  | n + 3 => rfl

/-- A marker that is absent, or of one of the six kinds with a parameter its kind takes. -/
abbrev MarkerFits (present kind param : Nat) : Prop := present = 0 ∨ (present = 1 ∧
  (kind = 0 ∨ kind = 1 ∨ ((kind = 2 ∨ kind = 3) ∧ param ≤ 5) ∨ ((kind = 4 ∨ kind = 5) ∧ 1 ≤ param)))

theorem checkMarker_eq (present kind param : Nat) : checkMarker present kind param =
    if MarkerFits present kind param then some (if present = 0 then none else some
      { param := param
        kind := if kind = 0 then .pause else if kind = 1 then .note else if kind = 2 then .timerStart
          else if kind = 3 then .timerStop else if kind = 4 then .lamp else .headFlag }) else none := by
  match present with
  | 0 => simp [checkMarker]
  | n + 2 => simp [checkMarker]
  | 1 =>
    match kind with
    | 0 | 1 | 2 | 3 | 4 | 5 => simp [checkMarker, MarkerFits, MarkerKind.ofCode, MarkerKind.accepts]
    | n + 6 => simp [checkMarker, MarkerKind.ofCode]

theorem recordChecked_claim : Claims.RecordChecked := by
  refine ⟨isTextCode_iff, fun _ => rfl, fun bytes => ?_⟩
  dsimp only
  simp only [← isTextCode_iff]
  unfold checkRecord
  simp only [List.all_eq_true, styleOfCode_eq, checkMarker_eq]
  generalize u8 bytes 0 = count
  generalize u8 bytes (count + 1) = style
  generalize u8 bytes (count + 2) = present
  generalize u8 bytes (count + 3) = kind
  generalize u8 bytes (count + 4) = param
  constructor
  · intro h
    split
    · next ht =>
      by_cases hs : style ≤ 2
      · have hm : ¬ MarkerFits present kind param := fun hm => h ⟨⟨ht.1, ht.2, hs⟩, hm⟩
        simp only [if_neg hm, if_pos hs]
      · simp only [if_neg hs]
    · rfl
  · rintro ⟨h1, h2, h3⟩ hm
    simp only [h1, h3, if_true, true_and]
    rw [if_pos h2, if_pos hm]

/-- Settles O22. -/
theorem openAndAppend : Obligations.OpenAndAppend := ⟨openStory_claim, recordChecked_claim, appendLine_claim⟩

end Sys2Proof.Machine

namespace Sys2Proof.Machine

/-! ### The power-on values (R187) -/

section powerOn
variable (rate : Nat)

/-- A port after a power-on reset: of class OPERATOR for port 0, PRESENTER for the others (R117, R136). -/
theorem powerOn_port (p : PortNo) :
    (State.powerOn rate).ports[p] = Port.reset (if p = 0 then .operator else .presenter) := by
  fin_cases p <;> rfl

theorem powerOn_head (h : HeadNo) : (State.powerOn rate).heads[h] = Head.reset h := by
  fin_cases h <;> rfl

theorem powerOn_class (p : PortNo) : (State.powerOn rate).arbiter.classes[p] = if p = 0 then .operator else .presenter := by
  fin_cases p <;> rfl

end powerOn

/-- Settles O3: each field of the state that the command leaves, read off its power-on values. -/
theorem powerOnReset : Obligations.PowerOnReset := by
  intro rate1 rate0 s
  refine ⟨_, rfl, rfl, rfl, rfl, fun _ => rfl, by simp only [State.powerOn, TextStore.reset, Config.blocks], rfl, rfl,
    fun k => ?_, rfl, rfl, rfl, rfl, rfl, rfl, rfl, rfl, rfl, rfl, rfl, rfl, fun p => ?_, rfl, rfl, rfl, rfl, rfl, rfl,
    rfl, rfl, fun n => ?_, rfl, fun h => ?_, rfl, rfl, rfl, rfl, rfl, rfl, rfl, rfl, rfl, fun p => ?_, fun h => ?_⟩
  · simp [State.powerOn, ScriptTable.reset, Story.free]
  · refine ⟨powerOn_class (rateOf rate1 rate0) p, ?_, ?_, ?_, powerOn_port (rateOf rate1 rate0) p⟩ <;> simp [State.powerOn, Arbiter.reset]
  · simp [State.powerOn, CueMonitor.reset, Timer.reset]
  · exact powerOn_head (rateOf rate1 rate0) h
  · refine ⟨?_, ?_, ?_⟩ <;> simp [State.powerOn, Mail.empty]
  · refine ⟨?_, ?_⟩ <;> simp [State.powerOn, Mail.empty]

/-! ### The invariants at reset -/

theorem reset_engineInv : EngineInv State.reset.engine where
  halted _ := ⟨rfl, rfl⟩
  stepping := by decide
  gliding := by decide
  void _ := rfl
  subline := nofun
  velocity := by decide
  maxSpeed := by decide
  target := by decide
  settings := by decide

/-- No story stands in the order, so none is eligible and the position is VOID. -/
theorem reset_liveInv : LiveInv State.reset where
  reports := nofun
  reset := nofun
  live :=
    have h : takeReports State.reset = State.reset := takeReports_none rfl
    h ▸ { void := fun _ => ⟨rfl, fun _ => rfl⟩, placed := nofun }

theorem reset_arbiterInv : ArbiterInv State.reset.arbiter where
  states := by decide
  holder := nofun
  waiting := nofun
  distinct := List.nodup_nil
  desk := by decide
  free _ := rfl

theorem reset_portInv (c : PortClass) : PortInv (Port.reset c) where
  fault := by simp [Port.reset]
  powered := nofun
  detached _ := ⟨rfl, rfl⟩
  kind := by simp [Port.reset]
  holdOff := nofun
  silence := Nat.zero_le _
  acquired := Nat.zero_le _
  idle := Nat.zero_le _

theorem reset_cueInv : CueInv CueMonitor.reset where
  depth := Nat.zero_le _
  reload := by decide
  chain := by decide
  expired := rfl
  expiring := .nil

theorem reset_clockInv (now : Nat) : ClockInv (FrameClock.reset now) where
  period := ⟨by simp [FrameClock.reset], by simp [FrameClock.reset]⟩
  trim := ⟨by simp [FrameClock.reset], by simp [FrameClock.reset]⟩
  goodRun := ⟨Nat.zero_le _, fun _ => Nat.zero_le _⟩
  flywheel := Nat.zero_le _
  mode := ⟨fun _ => rfl, fun _ => rfl⟩

theorem reset_headInv (h : HeadNo) : HeadInv (Head.reset h) where
  history := ⟨Nat.zero_le _, List.nodup_nil⟩
  tables := nofun
  views := Nat.zero_le _
  replies := Nat.zero_le _
  down _ := ⟨rfl, rfl⟩
  settings := by simp [Head.reset, ViewSettings.default]

theorem reset_linkInv (rate : Nat) : LinkInv (LinkController.reset rate) where
  requests := Nat.zero_le _
  busy := Nat.zero_le _
  replies := Nat.zero_le _
  distinct := List.nodup_nil
  enabled := nofun
  waits _ := ⟨rfl, rfl⟩

/-- Settles O4, block by block. -/
theorem resetHasTheInvariants : Obligations.ResetHasTheInvariants where
  store := reset_storeInv
  script := .of_cleared
  engine := reset_engineInv
  live := reset_liveInv
  arbiter := reset_arbiterInv
  ports p := powerOn_port 0 p ▸ reset_portInv _
  cues := reset_cueInv
  clock := reset_clockInv 0
  heads h := powerOn_head 0 h ▸ reset_headInv h
  link := reset_linkInv 0

end Sys2Proof.Machine

namespace Sys2Proof.Machine

/-! ### What each block takes when a Reset takes effect (R186)

Each part of `takeReset` as one replacement of the parts of the state that it writes. -/

section putArbiter
variable (s : State)

/-- The Standing report that a change of the arbiter sends a port (R121). -/
def standingReports (a b : Arbiter) (cause : Bool) (p : PortNo) : List (Msg (DriveState × PortClass)) :=
  if a.driveStates[p] = b.driveStates[p] ∧ a.classes[p] = b.classes[p] then []
  else [{ req := cause, body := (b.driveStates[p], b.classes[p]) }]

@[simp] theorem standingReports_self (a : Arbiter) (cause : Bool) (p : PortNo) : standingReports a a cause p = [] := by
  simp [standingReports]

theorem reportStanding_eq (a b : Arbiter) (p : PortNo) : reportStanding a b s p =
    s.withMail { s.mail with
      standing := s.mail.standing.set p.val (s.mail.standing[p] ++ standingReports a b s.cause p) p.isLt } := by
  unfold reportStanding standingReports
  split
  · simp [State.withMail]
  · rfl

/-- Every port's channel after the reports of a change (R121). -/
theorem foldl_reportStanding (a b : Arbiter) : (List.finRange 4).foldl (reportStanding a b) s =
    s.withMail { s.mail with
      standing := Vector.ofFn fun p => s.mail.standing[p] ++ standingReports a b s.cause p } := by
  have hl : List.finRange 4 = [0, 1, 2, 3] := rfl
  simp only [hl, List.foldl_cons, List.foldl_nil, reportStanding_eq, State.withMail_mail, State.withMail_withMail,
    State.withMail_cause]
  congr 2
  ext i hi
  interval_cases i <;> simp

/-- A changed arbiter put in force: itself, what it sends the ports, and its notice (R119, R121, R134). -/
theorem putArbiter_eq (b : Arbiter) : putArbiter b s =
    ((s.withArbiter b.settle).withMail { s.mail with
      standing := Vector.ofFn fun p => s.mail.standing[p] ++ standingReports s.arbiter b.settle s.cause p }).withLink
      (if driveChanged s.arbiter b.settle then s.link.raise .driveChanged else s.link) := by
  unfold putArbiter
  dsimp only
  rw [foldl_reportStanding]
  split <;> rfl

theorem driveChanged_iff (a b : Arbiter) : driveChanged a b = false ↔
    a.holder = b.holder ∧ a.heldClass = b.heldClass ∧ a.pin = b.pin ∧ a.mode = b.mode := by
  simp [driveChanged, and_assoc]

end putArbiter

section reset
variable (x : Scope) (s : State)

theorem resetClock_eq : resetClock x s = s.withClock (if x.all then .reset s.now else s.clock) := by
  unfold resetClock; split <;> rfl

theorem resetStore_eq : resetStore x s =
    s.withStore (if x.hitsScript then s.store.scriptReset x.all else s.store) := by
  unfold resetStore; split <;> rfl

theorem resetScript_eq : resetScript x s = s.withScript (if x.hitsScript then .reset else s.script) := by
  unfold resetScript; split <;> rfl

theorem resetEngine_eq : resetEngine x s =
    (s.withEngine (if x.hitsScript || x.hitsMotion then s.engine.scopeReset x s.clock.counter else s.engine)).withLink
      (if (x.hitsScript || x.hitsMotion) = true ∧ s.engine.motion ≠ .halted then s.link.raise .scrollHalted
        else s.link) := by
  unfold resetEngine
  by_cases hx : (x.hitsScript || x.hitsMotion) = true <;> by_cases hm : s.engine.motion = .halted <;>
    simp only [hx, hm, if_true, ne_eq, not_true_eq_false, and_false, not_false_eq_true, and_self, if_false] <;>
      rfl

/-- The arbiter after a reset of a scope (R136, R137). -/
def Arbiter.afterReset (a : Arbiter) (x : Scope) : Arbiter :=
  if x.hitsMotion || x.hitsPorts then (a.scopeReset x).settle else a

theorem resetArbiter_eq : resetArbiter x s =
    ((s.withArbiter (s.arbiter.afterReset x)).withMail { s.mail with
      standing := Vector.ofFn fun p =>
        s.mail.standing[p] ++ standingReports s.arbiter (s.arbiter.afterReset x) s.cause p }).withLink
      (if driveChanged s.arbiter (s.arbiter.afterReset x) then s.link.raise .driveChanged else s.link) := by
  unfold resetArbiter Arbiter.afterReset
  split
  · exact putArbiter_eq _ _
  · have hd : driveChanged s.arbiter s.arbiter = false := (driveChanged_iff _ _).2 ⟨rfl, rfl, rfl, rfl⟩
    simp [hd, State.withMail, State.withArbiter, State.withLink]

theorem resetPorts_eq : resetPorts x s =
    { s.withMail { s.mail with toArbiter := if x.hitsPorts then Vector.replicate 4 [] else s.mail.toArbiter } with
      ports := if x.hitsPorts then s.ports.map (fun q => q.scopeReset x.all s.now) else s.ports } := by
  unfold resetPorts; split <;> rfl

/-- The Cue Monitor after a reset of a scope (R153, R154). -/
def cuesAfterReset : CueMonitor :=
  if x.all then .reset
  else { s.cues with
    timers := if x.motion then Vector.replicate 6 Timer.reset else s.cues.timers
    expiring := if x.motion then [] else s.cues.expiring
    queue := if x.script then [] else if x.motion then rebuilt s.script s.store s.engine.live [] [] else s.cues.queue }

theorem resetCues_eq : resetCues x s =
    (s.withCues (cuesAfterReset x s)).withMail { s.mail with
      flash := if x.all = true ∧ 0 < s.cues.flashCount then s.mail.flash.map (· ++ [s.msg false]) else s.mail.flash
      cueFlag := if x.all = true ∧ 0 < s.cues.flagCount then s.mail.cueFlag.map (· ++ [s.msg false])
        else s.mail.cueFlag } := by
  unfold resetCues cuesAfterReset
  cases x.all
  · cases x.motion <;> cases x.script <;> rfl
  · unfold resetCuesAll
    by_cases h1 : 0 < s.cues.flashCount <;> by_cases h2 : 0 < s.cues.flagCount <;>
      simp only [h1, h2, if_true, if_false, and_true, and_false] <;> rfl

theorem resetHeads_eq : resetHeads x s =
    { s with heads := if x.hitsHeads then Vector.ofFn fun h => s.heads[h].scopeReset h else s.heads } := by
  unfold resetHeads
  split
  · rfl
  · rfl

/-- The part once every block but the Link Controller has taken its reset values. -/
def resetBlocks : State :=
  resetHeads x (resetCues x (resetPorts x (resetArbiter x (resetEngine x (resetScript x (resetStore x
    (resetClock x s)))))))

/-- The Scroll Engine after a reset of a scope; the clock's part comes before it (R94, R95). -/
def engineAfterReset : Engine :=
  if x.hitsScript || x.hitsMotion then s.engine.scopeReset x (if x.all then 0 else s.clock.counter) else s.engine

/-- The notices that the parts of a reset list (R69, R134; log 48). -/
def linkAfterReset : LinkController :=
  let l := if (x.hitsScript || x.hitsMotion) = true ∧ s.engine.motion ≠ .halted then s.link.raise .scrollHalted
    else s.link
  if driveChanged s.arbiter (s.arbiter.afterReset x) then l.raise .driveChanged else l

/-- The queue is rebuilt by the script and the position as they were, since a scope with SCRIPT empties it. -/
theorem cuesAfterReset_parts : cuesAfterReset x { s with
      store := if x.hitsScript then s.store.scriptReset x.all else s.store
      script := if x.hitsScript then .reset else s.script
      engine := engineAfterReset x s } = cuesAfterReset x s := by
  have hl : x.script = false → x.all = false → (engineAfterReset x s).live = s.engine.live := by
    intro h1 h2
    unfold engineAfterReset
    split <;> simp [Engine.scopeReset, Scope.hitsScript, h1, h2]
  unfold cuesAfterReset
  cases hx : x.all <;> cases hy : x.script <;> simp [Scope.hitsScript, hx, hy, hl]

/-- Every block but the Link Controller's own part, under any scope (R186). -/
theorem resetBlocks_eq : resetBlocks x s = { s with
    store := if x.hitsScript then s.store.scriptReset x.all else s.store
    script := if x.hitsScript then .reset else s.script
    engine := engineAfterReset x s
    arbiter := s.arbiter.afterReset x
    ports := if x.hitsPorts then s.ports.map (fun q => q.scopeReset x.all s.now) else s.ports
    cues := cuesAfterReset x s
    clock := if x.all then .reset s.now else s.clock
    heads := if x.hitsHeads then Vector.ofFn fun h => s.heads[h].scopeReset h else s.heads
    link := linkAfterReset x s
    mail := { s.mail with
      toArbiter := if x.hitsPorts then Vector.replicate 4 [] else s.mail.toArbiter
      standing := Vector.ofFn fun p =>
        s.mail.standing[p] ++ standingReports s.arbiter (s.arbiter.afterReset x) s.cause p
      flash := if x.all = true ∧ 0 < s.cues.flashCount then s.mail.flash.map (· ++ [s.msg false]) else s.mail.flash
      cueFlag := if x.all = true ∧ 0 < s.cues.flagCount then s.mail.cueFlag.map (· ++ [s.msg false])
        else s.mail.cueFlag } } := by
  have hf : (if x.all then FrameClock.reset s.now else s.clock).counter = if x.all then 0 else s.clock.counter := by
    split <;> rfl
  rw [← cuesAfterReset_parts]
  unfold resetBlocks engineAfterReset
  rw [← hf, resetClock_eq, resetStore_eq, resetScript_eq, resetEngine_eq, resetArbiter_eq, resetPorts_eq, resetCues_eq,
    resetHeads_eq]
  rfl

theorem takeReset_eq (hq : s.cues.quiet = true) : takeReset x s = resetLink x (resetBlocks x s) := by
  unfold takeReset
  rw [finishCueWork_quiet hq]
  rfl

end reset
end Sys2Proof.Machine

namespace Sys2Proof.Machine

/-! ### The work that a Reset finishes first (R145, R151; log 44) -/

/-- A Reset whose Done is the frame being sent is an event of the last request. -/
theorem exec_resetTakesEffect {s : State} {x : Scope} (hx : s.link.resetScope = some x)
    (hr : s.link.sendsReset = true) :
    exec .resetTakesEffect s = .next (event true (takeReset x) s) := by
  have h : exec .resetTakesEffect s = execResetTakesEffect s := rfl
  rw [h, execResetTakesEffect, hx]
  simp [hr, ran]

section cueWork
variable {c : CueMonitor} {s : State} {k : Nat} (n : TimerNo)

/-- No end of a count is due, and the expiries that are due come in number order, none below `k`. -/
structure CueMonitor.DueFrom (k : Nat) (c : CueMonitor) : Prop where
  flash : c.flashEndDue = false
  flag : c.flagEndDue = false
  sorted : c.expiring.Pairwise (· < ·)
  from_k : ∀ m ∈ c.expiring, k ≤ m.val

theorem CueMonitor.DueFrom.quiet (h : c.DueFrom 6) : c.quiet = true := by
  have he : c.expiring = [] := List.eq_nil_iff_forall_not_mem.2 fun m hm => absurd (h.from_k m hm) (by omega)
  simp [CueMonitor.quiet, h.flash, h.flag, he]

/-- An expiry that is due joins the others in its place. -/
theorem countTimer_dueFrom (hk : k ≤ n.val) (h : c.DueFrom k) : (countTimer n c).DueFrom k := by
  unfold countTimer
  dsimp only
  split
  · refine ⟨h.flash, h.flag, ?_, fun m hm => ?_⟩
    · have hs (p : TimerNo → Bool) := h.sorted.filter p
      simp only [List.pairwise_append, List.pairwise_cons, List.mem_filter, List.mem_cons, decide_eq_true_eq]
      refine ⟨hs _, ⟨fun m hm => hm.2, hs _⟩, fun a ha b hb => ?_⟩
      rcases hb with rfl | hb
      · exact ha.2
      · exact ha.2.trans hb.2
    · rcases List.mem_append.1 hm with hm | hm
      · exact h.from_k m (List.mem_of_mem_filter hm)
      · rcases List.mem_cons.1 hm with rfl | hm
        · exact hk
        · exact h.from_k m (List.mem_of_mem_filter hm)
  · exact ⟨h.flash, h.flag, h.sorted, h.from_k⟩

/-- An expiry can bring on only that of the next timer. -/
theorem passExpiry_dueFrom (h : c.DueFrom (n.val + 1)) : (passExpiry n c).DueFrom (n.val + 1) := by
  unfold passExpiry
  split
  · dsimp only
    split
    · exact countTimer_dueFrom _ le_rfl h
    · exact h
  · exact h

/-- The action of an expiry leaves what is due as it was. -/
theorem expiryAction_due (a : ExpiryAction) (s : State) : (expiryAction a s).cues.flashEndDue = s.cues.flashEndDue ∧
    (expiryAction a s).cues.flagEndDue = s.cues.flagEndDue ∧ (expiryAction a s).cues.expiring = s.cues.expiring ∧
    (expiryAction a s).cause = s.cause ∧ (expiryAction a s).link.sending = s.link.sending := by
  cases a
  case lamp => simp only [expiryAction, lampAction]; split <;> exact ⟨rfl, rfl, rfl, rfl, rfl⟩
  all_goals exact ⟨rfl, rfl, rfl, rfl, rfl⟩

/-- A part with a frame on the line that has finished the cue work of the timers below `k`. -/
structure CueWork (k : Nat) (s : State) : Prop where
  sends : s.link.sending ≠ none
  caused : s.cause = true
  due : s.cues.DueFrom k

theorem expireTimer_cueWork {rest : List TimerNo} (he : s.cues.expiring = n :: rest) (h : CueWork n.val s) :
    CueWork (n.val + 1) (expireTimer n s) := by
  obtain ⟨hn, hs⟩ := List.pairwise_cons.1 (he ▸ h.due.sorted)
  unfold expireTimer
  dsimp only
  generalize hu : raise .timerExpired _ = u
  obtain ⟨h1, h2, h3, h4, h5⟩ := expiryAction_due s.cues.timers[n].action u
  subst hu
  refine ⟨?_, h4.trans h.caused, passExpiry_dueFrom n ⟨h1.trans h.due.flash, h2.trans h.due.flag, ?_, ?_⟩⟩
  · rw [State.withCues_link, h5, raise_link, LinkController.raise_sending]
    exact h.sends
  · change List.Pairwise (· < ·) (expiryAction _ _).cues.expiring
    rw [h3]
    simpa [he] using hs
  · change ∀ m ∈ (expiryAction _ _).cues.expiring, _
    rw [h3]
    simpa [he] using fun m hm => hn m hm

/-- The timer's turn in the pass: it expires when it is next, and is not due otherwise. -/
theorem expireIfDue_cueWork (h : CueWork n.val s) : CueWork (n.val + 1) (expireIfDue s n) := by
  unfold expireIfDue
  split
  case isTrue hd =>
    obtain ⟨rest, he⟩ : ∃ rest, s.cues.expiring = n :: rest := List.head?_eq_some_iff.1 hd
    have hw := expireTimer_cueWork n he h
    rwa [sendIfIdle_busy hw.sends]
  case isFalse hd =>
    refine ⟨h.sends, h.caused, h.due.flash, h.due.flag, h.due.sorted, fun m hm => ?_⟩
    cases he : s.cues.expiring with
    | nil => simp [he] at hm
    | cons a rest =>
      have ha : n.val ≤ a.val := h.due.from_k a (by simp [he])
      have hne : a ≠ n := fun e => hd (by simp [he, e])
      have hlt : n.val < a.val := lt_of_le_of_ne ha fun e => hne (Fin.ext e.symm)
      have hs := (List.pairwise_cons.1 (he ▸ h.due.sorted)).1
      rw [he] at hm
      rcases List.mem_cons.1 hm with rfl | hm
      · exact hlt
      · exact hlt.trans (hs m hm)

theorem endFlash_cues (s : State) : (endFlash s).cues = { s.cues with flashEndDue := false } ∧
    (endFlash s).cause = s.cause ∧ (endFlash s).link = s.link := by
  unfold endFlash
  split
  · exact ⟨rfl, rfl, rfl⟩
  case isFalse h => simp [← Bool.eq_false_iff.2 h]

theorem endCueFlag_cues (s : State) : (endCueFlag s).cues = { s.cues with flagEndDue := false } ∧
    (endCueFlag s).cause = s.cause ∧ (endCueFlag s).link = s.link := by
  unfold endCueFlag
  split
  · exact ⟨rfl, rfl, rfl⟩
  case isFalse h => simp [← Bool.eq_false_iff.2 h]

/-- The ends of the two counts come first. -/
theorem endCounts_cueWork (hs : s.link.sending ≠ none) (hc : s.cause = true) (hi : CueInv s.cues) :
    CueWork 0 (endCueFlag (endFlash s)) := by
  obtain ⟨h1, h2, h3⟩ := endFlash_cues s
  obtain ⟨k1, k2, k3⟩ := endCueFlag_cues (endFlash s)
  refine ⟨by rwa [k3, h3], k2.trans (h2.trans hc), ?_⟩
  rw [k1, h1]
  exact ⟨rfl, rfl, hi.expiring, fun m _ => Nat.zero_le _⟩

theorem finishCueWork_cueWork (hs : s.link.sending ≠ none) (hc : s.cause = true) (hi : CueInv s.cues) :
    CueWork 6 (finishCueWork s) := by
  have hl : List.finRange 6 = [0, 1, 2, 3, 4, 5] := rfl
  have h0 := endCounts_cueWork hs hc hi
  simp only [finishCueWork, hl, List.foldl_cons, List.foldl_nil]
  exact expireIfDue_cueWork 5 (expireIfDue_cueWork 4 (expireIfDue_cueWork 3 (expireIfDue_cueWork 2
    (expireIfDue_cueWork 1 (expireIfDue_cueWork 0 h0)))))

end cueWork

theorem sending_of_sendsReset {l : LinkController} (h : l.sendsReset = true) : l.sending ≠ none := by
  intro hn
  simp [LinkController.sendsReset, hn] at h

theorem resetFinishesCueWork_claim : Claims.ResetFinishesCueWork := by
  intro s x hx hr hi
  have hs : (s.withCause true).link.sending ≠ none := sending_of_sendsReset hr
  have hw := finishCueWork_cueWork (s := s.withCause true) hs rfl hi
  have hk : Same [.cues, .mail, .notices, .sending] (s.withCause true) (finishCueWork (s.withCause true)) :=
    same_finishCueWork (fun h => absurd h hs) Same.rfl (by decide) (List.Subset.refl _)
  have hscope := congrArg (·.resetScope) (hk.link (by decide))
  have hsend := hk.ending (by decide) hs
  intro u
  have hux : u.link.resetScope = some x := hscope.trans hx
  have hur : u.link.sendsReset = true := by
    rw [LinkController.sendsReset, hsend]
    exact hr
  have hq : u.cues.quiet = true := hw.due.quiet
  refine ⟨hq, hux, hur, ?_⟩
  have hc : u.withCause true = u := by rw [← hw.caused]; rfl
  rw [exec_resetTakesEffect hx hr, exec_resetTakesEffect hux hur, event, event, hc]
  unfold takeReset
  rw [finishCueWork_quiet hq]

end Sys2Proof.Machine

namespace Sys2Proof.Machine

/-! ### A Reset of ALL, and of a lesser scope (R186) -/

section port
variable (q : Port)

theorem Port.autoPattern_eq : q.autoPattern =
    if q.flash = true ∧ q.cls = .presenter then { on := 5, off := 5 }
    else if q.drive = .holding then (if q.pickup = .pickedUp then { on := 1, off := 0 } else { on := 10, off := 10 })
    else if q.drive = .waiting then { on := 25, off := 25 }
    else { on := 0, off := 0 } := by
  unfold Port.autoPattern
  congr 1
  cases q.drive
  case holding => cases q.pickup <;> rfl
  all_goals rfl

theorem Port.relamp_eq : q.relamp =
    (let pat := q.lampOverride.getD
        (if q.flash = true ∧ q.cls = .presenter then { on := 5, off := 5 }
        else if q.drive = .holding then
          (if q.pickup = .pickedUp then { on := 1, off := 0 } else { on := 10, off := 10 })
        else if q.drive = .waiting then { on := 25, off := 25 }
        else { on := 0, off := 0 })
      if pat = q.pattern then q else { q with pattern := pat, phase := 0 }) := by
  rw [Port.relamp, Port.autoPattern_eq]

/-- What a port takes in a reset, before its lamp finds its pattern again (R118). -/
def Port.cleared (all : Bool) (now : Nat) : Port :=
  { q with
    state := .detached, supply := false, holdOff := some (now + 100000), fault := none, kind := none
    connectChange := false, enableChange := false, faultChange := false
    baselines := Vector.replicate 5 0, sums := Vector.replicate 5 0, acquired := 0
    reverse := false, mapped := none, prevMapped := none, lastSent := none, pickup := .pickedUp
    common := .default, wheel := .default, strip := .default, pedal := .default
    lampOverride := none, flash := if all then false else q.flash
    releaseDue := false, rx := .hunting, watchFrom := now, ackDue := none }

theorem Port.scopeReset_eq (all : Bool) (now : Nat) : q.scopeReset all now = (q.cleared all now).relamp := by
  unfold Port.scopeReset Port.cleared
  cases all
  · rw [Bool.not_false, Bool.and_true]; rfl
  · rw [Bool.not_true, Bool.and_false]; rfl

theorem ports_scopeReset (ports : Vector Port 4) (all : Bool) (now : Nat) (p : PortNo) :
    (ports.map fun q => q.scopeReset all now)[p] = (ports[p].cleared all now).relamp :=
  (Vector.getElem_map _ _).trans (Port.scopeReset_eq _ _ _)

end port

section arbiter
variable (a : Arbiter) {x : Scope}

theorem Arbiter.settle_reset : Arbiter.reset.settle = .reset := rfl

theorem Arbiter.afterReset_all (h : x.all = true) : a.afterReset x = .reset := by
  simp [Arbiter.afterReset, Arbiter.scopeReset, Scope.hitsMotion, h, Arbiter.settle_reset]

/-- A scope with neither MOTION nor PORTS leaves the arbiter alone (R137). -/
theorem Arbiter.afterReset_other (h : x.all = false) (hm : x.motion = false) (hp : x.ports = false) :
    a.afterReset x = a := by
  simp [Arbiter.afterReset, Scope.hitsMotion, Scope.hitsPorts, h, hm, hp]

/-- The default arbiter has every drive state IDLE, whatever its enabled view (R119, R137). -/
theorem Arbiter.afterReset_motion (h : x.all = false) (hm : x.motion = true) : a.afterReset x =
    { Arbiter.reset with enabled := if x.ports then Vector.replicate 4 false else a.enabled } := by
  unfold Arbiter.afterReset Arbiter.scopeReset Scope.hitsMotion Scope.hitsPorts
  cases x.ports <;> simp [h, hm] <;> rfl

theorem Arbiter.settle_driveStates (p : PortNo) : a.settle.driveStates[p] = a.stateOf p := by
  match p with
  | 0 | 1 | 2 | 3 => rfl

/-- The drive is released; the desk holds it if its claim stands, and no port waits (R137). -/
theorem Arbiter.afterReset_ports (h : x.all = false) (hm : x.motion = false) (hp : x.ports = true) :
    a.afterReset x = a.portsReset.settle := by
  simp [Arbiter.afterReset, Arbiter.scopeReset, Scope.hitsMotion, Scope.hitsPorts, h, hm, hp]

theorem Arbiter.afterReset_ports_parts (h : x.all = false) (hm : x.motion = false) (hp : x.ports = true) :
    a.afterReset x = { a with
      holder := if a.deskClaim then some .desk else none, joined := []
      enabled := Vector.replicate 4 false, active := Vector.replicate 4 false
      driveStates := (a.afterReset x).driveStates } := by
  rw [a.afterReset_ports h hm hp]
  rfl

theorem Arbiter.portsReset_stateOf (p : PortNo) : a.portsReset.stateOf p = if a.barred p then .barred else .idle := by
  have hh : a.portsReset.holder ≠ some (.port p) := by
    simp only [Arbiter.portsReset]
    split <;> simp
  have hj : p ∉ a.portsReset.joined := List.not_mem_nil
  rw [Arbiter.stateOf, if_neg hh, if_neg hj]
  rfl

theorem Arbiter.afterReset_ports_driveStates (h : x.all = false) (hm : x.motion = false) (hp : x.ports = true)
    (p : PortNo) : (a.afterReset x).driveStates[p] = if a.barred p then .barred else .idle := by
  rw [a.afterReset_ports h hm hp, settle_driveStates, portsReset_stateOf]

end arbiter

theorem Engine.scopeReset_all (e : Engine) {x : Scope} (h : x.all = true) (f : Half) :
    e.scopeReset x f = { Engine.reset with haltCause := .reset, haltFrame := f } := by
  simp [Engine.scopeReset, Engine.reset, Scope.hitsScript, Scope.hitsMotion, h]

section link
variable (x : Scope) (s : State)

@[simp] theorem linkAfterReset_rate : (linkAfterReset x s).rate = s.link.rate := by
  unfold linkAfterReset
  dsimp only
  split <;> split <;> simp

@[simp] theorem linkAfterReset_rx : (linkAfterReset x s).rx = s.link.rx := by
  unfold linkAfterReset
  dsimp only
  split <;> split <;> simp

end link

theorem scriptReset_pool (t : TextStore) (all : Bool) : (t.scriptReset all).pool = List.range 8192 := by
  simp only [TextStore.scriptReset, Config.blocks]

theorem reset_stories (k : Slot) : ScriptTable.reset.stories[k] = .free := by simp [ScriptTable.reset]

theorem markersOf_armed {st : TextStore} {bs : List Nat} {e : CueEntry} (h : e ∈ markersOf st bs) :
    e.skipped = false := by
  obtain ⟨b, -, hb⟩ := List.mem_filterMap.1 h
  obtain ⟨m, -, rfl⟩ := Option.map_eq_some_iff.1 hb
  rfl

/-- With no old entry to keep the state of, a queue of armed markers is as it was read. -/
theorem map_keepState_nil {l : List CueEntry} (h : ∀ e ∈ l, e.skipped = false) : l.map (keepState []) = l := by
  refine (List.map_congr_left fun e he => ?_).trans (List.map_id l)
  simp [keepState, ← h e he]

/-- The queue that a reset of MOTION leaves: the first sixteen markers from the live position on (R154). -/
def queueAhead (t : ScriptTable) (st : TextStore) (pos : Option Pos) : List CueEntry :=
  match pos.bind (fun p => t.reach p.block) with
  | some r => (markersOf st r.fore).take 16
  | none => []

/-- With no old entries every marker ahead is ARMED, and a position out of reach leaves no queue (R154; log 11). -/
theorem rebuilt_nil (t : ScriptTable) (st : TextStore) (pos : Option Pos) :
    rebuilt t st pos [] [] = queueAhead t st pos := by
  unfold rebuilt queueAhead
  cases pos with
  | none => rfl
  | some p =>
    dsimp only [Option.bind_some]
    cases t.reach p.block with
    | none => rfl
    | some r => exact map_keepState_nil fun e he => markersOf_armed (List.mem_of_mem_take he)

/-- With nothing due, a lesser scope writes only the timers and the queue (R154). -/
theorem cuesAfterReset_scope {x : Scope} {s : State} (h : x.all = false) (hq : s.cues.quiet = true) :
    cuesAfterReset x s = { s.cues with
      timers := if x.motion then Vector.replicate 6 Timer.reset else s.cues.timers
      queue := if x.script then [] else if x.motion then queueAhead s.script s.store s.engine.live else s.cues.queue } := by
  have he : s.cues.expiring = [] := by
    simp only [CueMonitor.quiet, Bool.and_eq_true, List.isEmpty_iff] at hq
    exact hq.2
  have hx : (if x.motion then [] else s.cues.expiring) = s.cues.expiring := by simp [he]
  rw [cuesAfterReset, if_neg (by simp [h]), rebuilt_nil, hx]

/-- Drive Changed is listed as the holder, the holding port's class, the pin and the mode follow (R134). -/
theorem raise_driveChanged (a b : Arbiter) (l : LinkController) :
    (if driveChanged a b = true then l.raise .driveChanged else l) =
      if a.holder = b.holder ∧ a.heldClass = b.heldClass ∧ a.pin = b.pin ∧ a.mode = b.mode then l
      else l.raise .driveChanged := by
  simp only [← driveChanged_iff, ite_not, ← Bool.not_eq_true]

section transmit
variable (s : State)

theorem transmitNext_withCause (b : Bool) : transmitNext (s.withCause b) = (transmitNext s).withCause b := by
  unfold transmitNext
  rw [State.withCause_link]
  split
  · rfl
  · exact sendNotice_withCause _ _ _ _
  · rfl

theorem sendNotice_sending (n : Notice) (rest : List Notice) : (sendNotice n rest s).link.sending ≠ none := by
  rw [sendNotice, afterSampling_eq]
  split <;> simp

/-- The transmitter that has just taken its next frame does nothing more. -/
theorem sendIfIdle_transmitNext : sendIfIdle (transmitNext s) = transmitNext s := by
  unfold transmitNext
  split
  case h_1 => exact sendIfIdle_busy (by simp [sendReply])
  case h_2 => exact sendIfIdle_busy (sendNotice_sending s _ _)
  case h_3 hr hn => exact sendIfIdle_empty hn hr

end transmit

section effect
variable {s : State} {x : Scope}

theorem exec_resetOfAll (hx : s.link.resetScope = some x) (hr : s.link.sendsReset = true) (ha : x.all = true)
    (hq : s.cues.quiet = true) : exec .resetTakesEffect s =
    .next (((resetBlocks x (s.withCause true)).withLink
      { LinkController.reset s.link.rate with rx := s.link.rx }).withCause false) := by
  rw [exec_resetTakesEffect hx hr, event, takeReset_eq x (s.withCause true) hq, resetLink, if_pos ha]
  have hl : (resetBlocks x (s.withCause true)).link = linkAfterReset x (s.withCause true) := by rw [resetBlocks_eq]
  rw [hl, linkAfterReset_rate, linkAfterReset_rx, sendIfIdle_empty rfl rfl]
  rfl

theorem exec_resetOfScope (hx : s.link.resetScope = some x) (hr : s.link.sendsReset = true) (ha : x.all = false)
    (hq : s.cues.quiet = true) : exec .resetTakesEffect s =
    .next (transmitNext (((resetBlocks x (s.withCause true)).withLink
      { linkAfterReset x s with resetScope := none }).withCause false)) := by
  rw [exec_resetTakesEffect hx hr, event, takeReset_eq x (s.withCause true) hq, resetLink, if_neg (by simp [ha])]
  have hl : (resetBlocks x (s.withCause true)).link = linkAfterReset x s := by rw [resetBlocks_eq]; rfl
  rw [hl, ← transmitNext_withCause, sendIfIdle_transmitNext]

end effect

end Sys2Proof.Machine

namespace Sys2Proof.Machine

/-! ### A Reset takes effect (R186) -/

theorem resetAll_claim : Claims.ResetAll := by
  intro s x hx hr ha hq hb auto lit reset fresh
  have hs : x.hitsScript = true := by simp [Scope.hitsScript, ha]
  have hm : x.hitsMotion = true := by simp [Scope.hitsMotion, ha]
  have hp : x.hitsPorts = true := by simp [Scope.hitsPorts, ha]
  have hh : x.hitsHeads = true := by simp [Scope.hitsHeads, ha]
  refine ⟨_, exec_resetOfAll hx hr ha hq, ?_⟩
  rw [resetBlocks_eq]
  simp only [hs, hm, hp, hh, ha, if_true, true_and, engineAfterReset, Bool.or_true, State.withCause_store,
    Arbiter.afterReset_all _ ha, Engine.scopeReset_all _ ha, State.withCause_script]
  refine ⟨scriptReset_read true hb, scriptReset_pool _ _, rfl, rfl, reset_stories, rfl, rfl, rfl, rfl, rfl,
    rfl, rfl, rfl, fun p => ?_, ?_, rfl, fun h => ?_, rfl, fun p => ?_, rfl, rfl, rfl, rfl⟩
  · exact (ports_scopeReset _ _ _ _).trans (Port.relamp_eq _)
  · unfold cuesAfterReset
    rw [if_pos ha]
    rfl
  · exact Vector.getElem_ofFn h.isLt
  · exact Vector.getElem_ofFn p.isLt

theorem resetOfAScope_claim : Claims.ResetOfAScope := by
  intro s x hx hr ha hq hb auto lit reset fresh a held
  have hs : x.hitsScript = x.script := by simp [Scope.hitsScript, ha]
  have hm : x.hitsMotion = x.motion := by simp [Scope.hitsMotion, ha]
  have hp : x.hitsPorts = x.ports := by simp [Scope.hitsPorts, ha]
  have hh : x.hitsHeads = x.heads := by simp [Scope.hitsHeads, ha]
  refine ⟨_, exec_resetOfScope hx hr ha hq, ?_⟩
  rw [resetBlocks_eq]
  simp only [hs, hm, hp, hh, ha, Bool.false_eq_true, if_false, false_and, engineAfterReset, linkAfterReset,
    Engine.scopeReset, State.withCause_store, State.withCause_engine, State.withCause_script, State.withCause_clock,
    raise_driveChanged]
  refine ⟨fun h => ?_, fun h => ?_, rfl, s.arbiter.afterReset_other ha, s.arbiter.afterReset_motion ha,
    fun h1 h2 => ⟨s.arbiter.afterReset_ports_parts ha h1 h2, s.arbiter.afterReset_ports_driveStates ha h1 h2⟩,
    fun p => ?_, ?_, rfl, fun h => ?_, ?_, fun p => ?_, rfl, rfl, rfl, rfl⟩
  · simp only [h, Bool.false_eq_true, if_false]
    exact ⟨rfl, rfl⟩
  · simp only [h, if_true]
    exact ⟨scriptReset_read false hb, scriptReset_pool _ _, rfl, rfl, reset_stories, rfl, rfl, rfl, rfl, rfl, rfl⟩
  · by_cases h : x.ports = true
    · simp only [h, if_true]
      exact (ports_scopeReset _ _ _ _).trans (Port.relamp_eq _)
    · simp only [h]
      rfl
  · exact cuesAfterReset_scope ha hq
  · by_cases hx : x.heads = true
    · simp only [hx, if_true]
      exact Vector.getElem_ofFn h.isLt
    · simp only [hx]
      rfl
  · rfl
  · exact Vector.getElem_ofFn p.isLt

/-- Settles O6: the parts of a reset are each one replacement (`resetBlocks_eq`), and the cue work left due is done
before it (`finishCueWork_cueWork`). -/
theorem resetTakesEffect : Obligations.ResetTakesEffect :=
  ⟨resetAll_claim, resetOfAScope_claim, resetFinishesCueWork_claim⟩

end Sys2Proof.Machine

namespace Sys2Proof.Machine

/-! ### The two records asked for and cleared (R57, R59, R61) -/

/-- A request whose kind calls for an empty body has come with one that is not: Malformed (R182, R188). -/
theorem runRequest_bodyNotEmpty {n : Nat} {owner : List Byte → State → Answer} {s : State} {r : Request}
    {rest : List Request} (hr : s.link.requests = r :: rest) (hk : r.kind.toNat = n)
    (hl : requestLength n r.body = some 0) (hb : r.body ≠ []) (ht : s.canTake = true) :
    runRequest n owner s = refused s .malformed := by
  refine runRequestIf_malformed hr (by simp [hk]) ht ?_
  rw [hk, hl]
  exact fun e => hb (List.length_eq_zero_iff.1 (Option.some.inj e).symm)

/-- Settles O30: the owner answers with the bytes of the two records and leaves the part as it is. -/
theorem queryFault_answers : Obligations.QueryFault := by
  refine fun s => ⟨fun h => ?_, fun r rest hr hk hb ht => ?_⟩
  · refine congrArg Host.Outcome.next (runRequest_done h rfl ?_ rfl rfl)
    refine congrArg (fun bytes => done bytes (s.withCause true)) (congrArg₂ (· ++ ·) ?_ ?_)
    · show faultBytes s.script.fault = _
      cases s.script.fault <;> rfl
    · show watchBytes s.script.watch = _
      cases s.script.watch <;> rfl
  · exact congrArg Host.Outcome.next (runRequest_bodyNotEmpty hr (by simp [hk]) rfl hb ht)

/-- An empty fault record emptied is the script as it was. -/
theorem withScript_noFault {s : State} (h : s.script.fault = none) :
    s.withScript { s.script with fault := none } = s := by
  rw [← h]; rfl

theorem clearFault_claim : Claims.ClearFault := by
  intro s
  refine ⟨fun h => ?_, fun r rest hr hk hb ht => ?_⟩
  · have hclear : exec .clearFault s =
        .next (answered s .done [] (s.withScript { s.script with fault := none })) :=
      congrArg Host.Outcome.next (runRequest_done h rfl rfl rfl rfl)
    exact ⟨hclear, fun hf => by rw [hclear, withScript_noFault hf]⟩
  · exact congrArg Host.Outcome.next (runRequest_bodyNotEmpty hr (by simp [hk]) rfl hb ht)

/-! ### The three edits as one request (R43 to R46)

They differ in the operands checked at the Range step and in what a completed edit does; the No Story, State and
protection steps are `editChecks` for all of them. -/

/-- The owner of an edit. -/
def editOwner : EditKind → List Byte → State → Answer
  | .insert => insertLine
  | .replace => replaceLine
  | .delete => deleteLines

/-- The operands that are out of range whatever the story holds: the record, or the count (R43). -/
def badOperands (kind : EditKind) (body : List Byte) : Bool :=
  if kind = .delete then decide (u8 body 3 = 0 ∨ 32 < u8 body 3) else (checkRecord (body.drop 3)).isNone

/-- The line or the run that the edit names lies outside a story of `lines` lines (R43). -/
def pastEnd (kind : EditKind) (body : List Byte) (lines : Nat) : Bool :=
  match kind with
  | .insert => decide (lines < u16 body 1)
  | .replace => decide (lines ≤ u16 body 1)
  | .delete => decide (lines < u16 body 1 + u8 body 3)

/-- What an edit does that has passed every check (R47 to R49). -/
def completeEdit (kind : EditKind) (body : List Byte) (k : Slot) (s : State) : Answer :=
  match kind, checkRecord (body.drop 3) with
  | .insert, some r => completeInsert k (u16 body 1) r s
  | .replace, some r => completeReplace k (u16 body 1) r (s.script.stories[k].lines.getD (u16 body 1) 0) s
  | .delete, _ => completeDelete k (u16 body 1) (u8 body 3) s
  | _, none => refuse .range s

theorem completeEdit_insert {body : List Byte} {r : LineRecord} (hr : checkRecord (body.drop 3) = some r) (k : Slot)
    (s : State) : completeEdit .insert body k s = completeInsert k (u16 body 1) r s := by
  simp only [completeEdit, hr]

theorem completeEdit_replace {body : List Byte} {r : LineRecord} (hr : checkRecord (body.drop 3) = some r) (k : Slot)
    (s : State) : completeEdit .replace body k s =
      completeReplace k (u16 body 1) r (s.script.stories[k].lines.getD (u16 body 1) 0) s := by
  simp only [completeEdit, hr]

theorem completeEdit_delete (body : List Byte) (k : Slot) (s : State) :
    completeEdit .delete body k s = completeDelete k (u16 body 1) (u8 body 3) s := rfl

/-- The checks run what completes the edit in the part as it stands, or not at all. -/
theorem editChecks_congr {kind : EditKind} {k : Slot} {line : Nat} {s : State} {f g : State → Answer} (h : f s = g s) :
    editChecks kind k line s f = editChecks kind k line s g := by
  simp only [editChecks, h]

theorem Story.held_iff (y : Story) : y.held = true ↔ y.state ≠ .free := by
  simp [Story.held]

/-- The commands of the three edits, and the owner each runs. -/
theorem exec_edit {c : Instr} {kind : EditKind} {code : Byte}
    (h : (c, kind, code) ∈ [(Instr.insertLine, EditKind.insert, (0x28 : Byte)), (.replaceLine, .replace, 0x29),
      (.deleteLines, .delete, 0x2A)]) (s : State) :
    exec c s = .next (runRequest code.toNat (editOwner kind) s) := by
  simp only [List.mem_cons, Prod.mk.injEq, List.not_mem_nil, or_false] at h
  obtain ⟨rfl, rfl, rfl⟩ | ⟨rfl, rfl, rfl⟩ | ⟨rfl, rfl, rfl⟩ := h <;> rfl

/-- The Range step, taken first for the slot: without one, no other check has a story to look at (R43). -/
theorem editOwner_badSlot {body : List Byte} (h : 64 ≤ u8 body 0) (kind : EditKind) (s : State) :
    editOwner kind body s = refuse .range s := by
  cases kind <;> simp only [editOwner, insertLine, replaceLine, deleteLines, withSlot_range h]

/-- A run of one line or more that begins past the last line also ends past it (R43). -/
theorem run_outOfRange_iff (held : Prop) (lines first count : Nat) :
    (count < 1 ∨ 32 < count ∨ (held ∧ (lines ≤ first ∨ lines < first + count))) ↔
      (count = 0 ∨ 32 < count) ∨ (held ∧ lines < first + count) := by
  by_cases h : held
  · simp only [h, true_and]
    omega
  · simp only [h, false_and, or_false]
    omega

/-- The steps of an edit whose slot is in range. -/
theorem editOwner_slot {body : List Byte} {k : Slot} (hk : u8 body 0 = k.val) (kind : EditKind) (s : State) :
    editOwner kind body s =
      if badOperands kind body ∨
          (s.script.stories[k].state ≠ .free ∧ pastEnd kind body s.script.stories[k].lines.length) then refuse .range s
      else editChecks kind k (u16 body 1) s (completeEdit kind body k) := by
  cases kind with
  | insert =>
    simp only [editOwner, insertLine, withSlot_slot hk, Story.held_iff]
    cases hr : checkRecord (body.drop 3) with
    | none => simp [badOperands, hr]
    | some r =>
      simp only [badOperands, hr, pastEnd, editChecks_congr (completeEdit_insert hr k s)]
      simp
  | replace =>
    simp only [editOwner, replaceLine, withSlot_slot hk, Story.held_iff]
    cases hr : checkRecord (body.drop 3) with
    | none => simp [badOperands, hr]
    | some r =>
      simp only [badOperands, hr, pastEnd, editChecks_congr (completeEdit_replace hr k s)]
      simp
  | delete =>
    simp only [editOwner, deleteLines, withSlot_slot hk, Story.held_iff, badOperands, pastEnd,
      editChecks_congr (completeEdit_delete body k s)]
    simp only [run_outOfRange_iff, if_true, decide_eq_true_eq]

theorem editOwner_range {body : List Byte} {k : Slot} {kind : EditKind} {s : State} (hk : u8 body 0 = k.val)
    (h : badOperands kind body = true ∨
      (s.script.stories[k].state ≠ .free ∧ pastEnd kind body s.script.stories[k].lines.length = true)) :
    editOwner kind body s = refuse .range s :=
  (editOwner_slot hk kind s).trans (if_pos h)

/-- An edit past the Range step. A FREE slot holds no story for a line to lie beyond (R43). -/
theorem editOwner_checks {body : List Byte} {k : Slot} {kind : EditKind} {s : State} (hk : u8 body 0 = k.val)
    (hb : badOperands kind body = false)
    (hl : s.script.stories[k].state = .free ∨ pastEnd kind body s.script.stories[k].lines.length = false) :
    editOwner kind body s = editChecks kind k (u16 body 1) s (completeEdit kind body k) := by
  refine (editOwner_slot hk kind s).trans (if_neg ?_)
  rintro (hbad | ⟨hs, hp⟩)
  · exact Bool.false_ne_true (hb.symm.trans hbad)
  · exact hl.elim hs fun hl => Bool.false_ne_true (hl.symm.trans hp)

/-! ### How an edit is refused (R44 to R46, R58) -/

theorem Causes.isEmpty_iff (c : Causes) :
    c.isEmpty = true ↔ c = { fixed := false, closed := false, limit := false, storeFull := false } := by
  cases c; simp [Causes.isEmpty, and_assoc]

section editChecks
variable {s : State} {kind : EditKind} {k : Slot} {line : Nat} {complete : State → Answer}

theorem editChecks_free (h : s.script.stories[k].state = .free) :
    editChecks kind k line s complete = refuse .noStory s := by
  simp only [editChecks, h]

theorem editChecks_loading (h : s.script.stories[k].state = .loading) :
    editChecks kind k line s complete = refuse .state s := by
  simp only [editChecks, h]

/-- An edit with a protection cause is aborted, and offered to the fault record. -/
theorem editChecks_aborted {c : Causes} (h : s.script.stories[k].state = .ready)
    (hp : protection (kind = .insert) s.script.stories[k] s.store = c)
    (hc : c ≠ { fixed := false, closed := false, limit := false, storeFull := false }) :
    editChecks kind k line s complete = refuse c.status
      (offerFault { causes := c, kind := kind, slot := k, line := line, frame := s.clock.counter } s) := by
  simp only [editChecks, h, hp]
  exact if_neg (mt c.isEmpty_iff.1 hc)

theorem offerFault_frozen (h : s.script.fault ≠ none) (r : FaultRecord) : offerFault r s = s := by
  obtain ⟨f, hf⟩ := Option.ne_none_iff_exists'.1 h
  simp only [offerFault, hf]

theorem offerFault_empty (h : s.script.fault = none) (r : FaultRecord) :
    offerFault r s = raise .editFault (s.withScript { s.script with fault := some r }) := by
  simp only [offerFault, h]

end editChecks

theorem editRefused_claim : Claims.EditRefused := by
  intro s body c kind code hmem h line count bad
  rw [exec_edit hmem]
  have refuses {x : Status} (e : editOwner kind body (s.withCause true) = refuse x (s.withCause true)) :
      (.next (runRequest code.toNat (editOwner kind) s) : Out) = .next (refused s x) :=
    congrArg Host.Outcome.next (runRequest_refused h rfl e)
  refine ⟨fun hr => refuses ?_, fun k hk hbad => ?_⟩
  · by_cases h64 : 64 ≤ u8 body 0
    · exact editOwner_badSlot h64 _ _
    · exact editOwner_range (k := ⟨u8 body 0, Nat.lt_of_not_le h64⟩) rfl (.inl (hr.resolve_left h64))
  intro y out
  have hout : pastEnd kind body y.lines.length = out := by cases kind <;> rfl
  have hchecks (ho : y.state = .free ∨ out = false) : editOwner kind body (s.withCause true) =
      editChecks kind k line (s.withCause true) (completeEdit kind body k) :=
    editOwner_checks hk hbad (ho.imp_right hout.trans)
  refine ⟨fun hs ho => refuses (editOwner_range hk (.inr ⟨hs, hout.trans ho⟩)),
    fun hs => refuses ((hchecks (.inl hs)).trans (editChecks_free hs)),
    fun hs ho => refuses ((hchecks (.inr ho)).trans (editChecks_loading hs)), ?_⟩
  intro hs ho causes hc status
  have habort := (hchecks (.inr ho)).trans (editChecks_aborted (c := causes) hs rfl hc)
  refine ⟨fun hf => ?_, fun hf => ?_⟩
  · rw [offerFault_frozen (s := s.withCause true) hf] at habort
    exact refuses habort
  · rw [offerFault_empty (s := s.withCause true) hf] at habort
    exact congrArg Host.Outcome.next (runRequest_answered h rfl habort (refuse_plain _ _) (by simp) (by simp))

/-- Settles O31, from the checks that the three edits share and the one record that Clear Fault empties. -/
theorem editsRefusedAndCleared : Obligations.EditsRefusedAndCleared := ⟨editRefused_claim, clearFault_claim⟩

end Sys2Proof.Machine

namespace Sys2Proof.Machine

/-! ### The Scroll Engine left alone

What the other blocks do leaves the engine as it stands and what it goes by: the script, the reports that wait for it and
the Reset that waits. No premise on the transmitter is needed: what it begins to send touches none of them. -/

/-- The engine is as it was, and so are the script, the reports that wait for it and the Reset that waits. -/
structure Aside (s t : State) : Prop where
  script : t.script = s.script
  engine : t.engine = s.engine
  reports : t.mail.engineReports = s.mail.engineReports
  scope : t.link.resetScope = s.link.resetScope

/-- What the Cue Monitor's own work leaves alone besides: the clock, the mark of the event and the frame starts that wait
for the engine. -/
structure CueAside (s t : State) : Prop extends Aside s t where
  clock : t.clock = s.clock
  cause : t.cause = s.cause
  frames : t.mail.engineFrames = s.mail.engineFrames

section aside
variable {ps qs : List Part} {s t u : State}

theorem Aside.rfl : Aside s s := ⟨Eq.refl _, Eq.refl _, Eq.refl _, Eq.refl _⟩

theorem Aside.trans (h : Aside s t) (k : Aside t u) : Aside s u where
  script := k.script.trans h.script
  engine := k.engine.trans h.engine
  reports := k.reports.trans h.reports
  scope := k.scope.trans h.scope

/-- An operation after others. -/
theorem Aside.after (k : Aside t u) (h : Aside s t) : Aside s u := h.trans k

theorem CueAside.rfl : CueAside s s := ⟨Aside.rfl, Eq.refl _, Eq.refl _, Eq.refl _⟩

theorem CueAside.trans (h : CueAside s t) (k : CueAside t u) : CueAside s u where
  toAside := h.toAside.trans k.toAside
  clock := k.clock.trans h.clock
  cause := k.cause.trans h.cause
  frames := k.frames.trans h.frames

/-- An operation that leaves the engine, the script, the mail and the Link Controller's own part alone. -/
theorem Same.aside (h : Same ps s t) (hk : .script ∉ ps := by decide) (he : .engine ∉ ps := by decide)
    (hm : .mail ∉ ps := by decide) (hl : .link ∉ ps := by decide) : Aside s t where
  script := h.script hk
  engine := h.engine he
  reports := by rw [h.mail hm]
  scope := congrArg (·.resetScope) (h.link hl)

theorem Aside.ite {c : Prop} [Decidable c] (ht : Aside s t) (hu : Aside s u) : Aside s (if c then t else u) := by
  split
  · exact ht
  · exact hu

theorem Aside.foldl {β : Type} {g : State → β → State} (h : ∀ s b, Aside s (g s b)) :
    ∀ (l : List β) (s : State), Aside s (l.foldl g s)
  | [], _ => .rfl
  | b :: l, s => (h s b).trans (Aside.foldl h l _)

theorem CueAside.foldl {β : Type} {g : State → β → State} (h : ∀ s b, CueAside s (g s b)) :
    ∀ (l : List β) (s : State), CueAside s (l.foldl g s)
  | [], _ => .rfl
  | b :: l, s => (h s b).trans (CueAside.foldl h l _)

theorem aside_withCause (b : Bool) : Aside s (s.withCause b) := (same_withCause b).aside

theorem cueAside_withCues (x : CueMonitor) : CueAside s (s.withCues x) := ⟨(same_withCues x).aside, rfl, rfl, rfl⟩

/-- A change of the mail that leaves the reports for the engine. -/
theorem aside_withMail (x : Mail) (h : x.engineReports = s.mail.engineReports := by rfl) : Aside s (s.withMail x) :=
  ⟨rfl, rfl, h, rfl⟩

theorem cueAside_withMail (x : Mail) (h : x.engineReports = s.mail.engineReports := by rfl)
    (hf : x.engineFrames = s.mail.engineFrames := by rfl) : CueAside s (s.withMail x) :=
  ⟨⟨rfl, rfl, h, rfl⟩, rfl, rfl, hf⟩

theorem aside_withLink (x : LinkController) (h : x.resetScope = s.link.resetScope := by rfl) : Aside s (s.withLink x) :=
  ⟨rfl, rfl, rfl, h⟩

theorem cueAside_sendIfIdle : CueAside s (sendIfIdle s) :=
  ⟨⟨by simp, by simp, by simp, by simp⟩, by simp, by simp, by simp⟩

theorem cueAside_raise (n : Notice) : CueAside s (raise n s) := ⟨⟨rfl, rfl, rfl, by simp⟩, rfl, rfl, rfl⟩

theorem aside_transmitNext : Aside s (transmitNext s) := by
  unfold transmitNext
  split
  · exact aside_withLink _
  · exact ⟨by simp, by simp, by simp, by simp⟩
  · exact aside_withLink _

/-! What brings an event about: the event's own work is all that can touch any of them. -/

theorem aside_event {req : Bool} {f : State → State} : Aside (f (s.withCause req)) (event req f s) :=
  (aside_withCause false).trans cueAside_sendIfIdle.toAside

theorem event_aside {req : Bool} {f : State → State} (h : ∀ u, Aside u (f u)) : Aside s (event req f s) :=
  ((aside_withCause req).trans (h _)).trans aside_event

/-- A channel's message, other than a report, taken by a block other than the engine. -/
theorem takeHead_aside {α β : Type} {c : List (Msg α)} {want : α → Option β} {x : List (Msg α) → State → Mail}
    {f : β → State → State} (hf : ∀ x u, Aside u (f x u))
    (hx : ∀ r u, (x r u).engineReports = u.mail.engineReports := by exact fun _ _ => rfl) :
    Aside s (takeHead c want (fun r u => u.withMail (x r u)) f s) := by
  unfold takeHead
  split
  · split
    · exact (aside_withMail _ (hx _ _)).trans (event_aside (hf _))
    · exact .rfl
  · exact .rfl

/-- A request leaves them as they were, or as its owner makes them. -/
theorem runRequestIf_aside (meant : Request → Bool) (owner : List Byte → State → Answer) (s : State) :
    Aside s (runRequestIf meant owner s) ∨
    ∃ r rest, s.link.requests = r :: rest ∧ s.canTake = true ∧
      Aside (owner r.body (s.withCause true)).state (runRequestIf meant owner s) := by
  unfold runRequestIf
  split
  · exact .inl .rfl
  · next r rest hr =>
    split
    · next hm =>
      rw [Bool.and_eq_true] at hm
      by_cases hf : bodyFits r = true
      · refine .inr ⟨r, rest, hr, hm.2, ?_⟩
        simp only [hf, if_true]
        exact aside_event.after (aside_withLink _)
      · refine .inl (event_aside fun u => ?_)
        simp only [hf, Bool.false_eq_true, if_false]
        exact aside_withLink _
    · exact .inl .rfl

theorem runRequest_asideOf {meant : Request → Bool} {owner : List Byte → State → Answer}
    (ho : ∀ {u} b, Aside u (owner b u).state) : Aside s (runRequestIf meant owner s) := by
  obtain h | ⟨r, rest, -, -, h⟩ := runRequestIf_aside meant owner s
  · exact h
  · exact ((aside_withCause true).trans (ho r.body)).trans h

theorem runRequest_aside {n : Nat} {owner : List Byte → State → Answer} (ho : ∀ {u} b, Same qs u (owner b u).state)
    (hk : .script ∉ qs := by decide) (he : .engine ∉ qs := by decide) (hm : .mail ∉ qs := by decide)
    (hl : .link ∉ qs := by decide) : Aside s (runRequest n owner s) :=
  runRequest_asideOf fun b => (ho b).aside hk he hm hl

/-! The Cue Monitor's work -/

theorem cueAside_lampAction (f : Nat) : CueAside s (lampAction f s) := by
  unfold lampAction
  dsimp only
  split
  · exact (cueAside_withCues _).trans (cueAside_withMail _)
  · exact cueAside_withCues _

theorem cueAside_headFlagAction (f : Nat) : CueAside s (headFlagAction f s) := by
  unfold headFlagAction
  dsimp only
  split
  · exact (cueAside_withCues _).trans (cueAside_withMail _)
  · exact cueAside_withCues _

theorem cueAside_expireTimer (n : TimerNo) : CueAside s (expireTimer n s) := by
  have ha (a : ExpiryAction) (u : State) : CueAside u (expiryAction a u) := by
    cases a
    · exact .rfl
    · exact cueAside_withMail _
    · exact cueAside_lampAction _
  exact (((cueAside_withCues _).trans (cueAside_raise _)).trans (ha _ _)).trans (cueAside_withCues _)

theorem cueAside_endFlash : CueAside s (endFlash s) := by
  unfold endFlash
  split
  · exact (cueAside_withCues _).trans (cueAside_withMail _)
  · exact .rfl

theorem cueAside_endCueFlag : CueAside s (endCueFlag s) := by
  unfold endCueFlag
  split
  · exact (cueAside_withCues _).trans (cueAside_withMail _)
  · exact .rfl

theorem cueAside_finishCueWork : CueAside s (finishCueWork s) := by
  refine (cueAside_endFlash.trans cueAside_endCueFlag).trans (CueAside.foldl (fun u n => ?_) _ _)
  unfold expireIfDue
  split
  · exact (cueAside_expireTimer n).trans cueAside_sendIfIdle
  · exact .rfl

theorem cueAside_drainCueMail : CueAside s (drainCueMail s) := by
  unfold drainCueMail
  split
  · exact .rfl
  · exact (cueAside_withMail _).trans (cueAside_withCues _)

theorem cueAside_cueReady : CueAside s (cueReady s) := cueAside_finishCueWork.trans cueAside_drainCueMail

theorem cueAside_fire (e : CueEntry) : CueAside s (fire e s) := by
  have ht (n : Nat) (f : TimerNo → State → State) (hf : ∀ m u, CueAside u (f m u)) (u : State) :
      CueAside u (timerOf n f u) := by
    unfold timerOf
    split
    · exact hf _ _
    · exact .rfl
  have hm (k : MarkerKind) (n : Nat) (u : State) : CueAside u (markerAction k n u) := by
    cases k
    · exact .rfl
    · exact .rfl
    · exact ht n startTimer (fun _ _ => cueAside_withCues _) u
    · exact ht n stopTimer (fun _ _ => cueAside_withCues _) u
    · exact cueAside_lampAction _
    · exact cueAside_headFlagAction _
  exact ((cueAside_withCues _).trans (cueAside_raise _)).trans (hm _ _ _)

theorem cueAside_passLines (mode : CheckMode) : ∀ (bs : List Nat) (s : State), CueAside s (passLines mode bs s).1
  | [], _ => .rfl
  | b :: bs, s => by
    have hd : CueAside s (dropEntry b s) := cueAside_withCues _
    unfold passLines
    split
    · exact cueAside_passLines mode bs s
    · dsimp only
      split
      · exact hd.trans (cueAside_passLines mode bs _)
      · split
        · exact hd.trans (cueAside_fire _)
        · exact (hd.trans (cueAside_fire _)).trans (cueAside_passLines mode bs _)

/-- A passage check never moves a position, whatever it fires. -/
theorem cueAside_passageCheck (a b : Pos) (fwd : Bool) (mode : CheckMode) :
    CueAside s (passageCheck a b fwd mode s).1 := by
  unfold passageCheck
  dsimp only
  split
  · exact cueAside_cueReady
  · split
    · exact cueAside_cueReady.trans (cueAside_passLines _ _ _)
    · exact cueAside_cueReady.trans (cueAside_withCues _)

/-! The work of the other blocks that send messages -/

theorem aside_arbiterEvent (f : Arbiter → Arbiter) : Aside s (arbiterEvent f s) := by
  unfold arbiterEvent
  rw [putArbiter_eq]
  refine ⟨rfl, rfl, rfl, ?_⟩
  show (if _ then _ else _ : LinkController).resetScope = _
  split
  · simp
  · rfl

theorem aside_sendArbiter (p : PortNo) (x : PortMsg) : Aside s (sendArbiter p x s) := aside_withMail _

theorem aside_leaveEnabled (x : PortState) (p : PortNo) : Aside s (leaveEnabled x p s) :=
  .ite ((same_setChange _ _).aside.trans (aside_sendArbiter _ _)) .rfl

theorem aside_enterFaulted (c : FaultCause) (p : PortNo) : Aside s (enterFaulted c p s) :=
  ((same_updatePort _ _).aside.trans (same_setChange _ _).aside).trans (aside_leaveEnabled _ _)

theorem aside_sendIdle (p : PortNo) : Aside s (sendIdle p s) :=
  .ite ((same_updatePort _ _).aside.trans (aside_sendArbiter _ _)) .rfl

theorem aside_portReady (p : PortNo) : Aside s (portReady p s) :=
  (aside_sendIdle p).trans (.ite ((aside_enterFaulted _ _).trans cueAside_sendIfIdle.toAside) .rfl)

theorem portEvent_aside {p : PortNo} {f : State → State} (h : ∀ u, Aside u (f u)) : Aside s (portEvent p f s) :=
  event_aside fun _ => (aside_portReady p).trans (h _)

theorem aside_enterEnabled (p : PortNo) : Aside s (enterEnabled p s) :=
  (same_updatePort _ _).aside.trans (aside_sendArbiter _ _)

theorem aside_sendSome (p : PortNo) (x : Option PortMsg) : Aside s (sendSome p x s) := by
  cases x
  · exact .rfl
  · exact aside_sendArbiter _ _

theorem aside_takeHello (k : Kind) (p : PortNo) : Aside s (takeHello k p s) := by
  have hp (f : Port → Port) {u : State} : Aside u (updatePort p f u) := (same_updatePort _ _).aside
  unfold takeHello
  dsimp only
  split
  · exact .ite (.after (aside_enterEnabled _) (.after (hp _) (hp _))) (.after (hp _) (hp _))
  · exact .ite (.after (hp _) (.after (hp _) (hp _))) (.after (hp _) (hp _))

theorem aside_formInput (p : PortNo) (d : DataReport) : Aside s (formInput p d s) := by
  have hp (f : Port → Port) {u : State} : Aside u (updatePort p f u) := (same_updatePort _ _).aside
  have hs {x y : Option PortMsg} {u : State} : Aside u (sendSome p x (sendSome p y u)) :=
    (aside_sendSome _ _).trans (aside_sendSome _ _)
  cases d with
  | wheel => exact (aside_sendSome _ _).trans hs
  | strip => exact ((hp _).trans (hp _)).trans hs
  | pedal => exact ((hp _).trans (hp _)).trans hs

theorem aside_takeData (d : DataReport) (p : PortNo) : Aside s (takeData d p s) := by
  have hp (f : Port → Port) {u : State} : Aside u (updatePort p f u) := (same_updatePort _ _).aside
  unfold takeData
  dsimp only
  split
  · refine .ite (.after (aside_formInput _ _) ?_) ?_
    all_goals
      exact .ite (.after (aside_sendArbiter _ _) (.after (hp _) (.after (hp _) (hp _))))
        (.after (hp _) (.after (hp _) (hp _)))
  · exact hp _

theorem aside_portChars (p : PortNo) (cs : List LineChar) : Aside s (portChars p cs s) := by
  have hf (k : Byte) (b : List Byte) {u : State} : Aside u (takeReportFrame p k b u) := by
    unfold takeReportFrame
    dsimp only
    split
    · exact aside_takeHello _ _
    · exact .ite (aside_takeData _ _) .rfl
    · exact .rfl
  refine Aside.foldl (fun u c => ?_) _ _
  unfold portChar
  dsimp only
  split
  · split
    · exact .after (hf _ _) (same_updatePort _ _).aside
    · exact (same_updatePort _ _).aside
  · exact .rfl

theorem aside_frameStart : Aside s (frameStart s) := (same_withClock _).aside.trans (aside_withMail _)

theorem aside_lockedPulse : Aside s (lockedPulse s) := .ite (aside_frameStart.trans (same_withClock _).aside) .rfl

theorem aside_takePulse : Aside s (takePulse s) := by
  have hc (x : FrameClock) {u : State} : Aside u (u.withClock x) := (same_withClock x).aside
  have hh : Aside s (huntingPulse s) := by
    unfold huntingPulse
    dsimp only
    split
    · exact hc _
    · exact .ite (.ite (((hc _).trans (cueAside_raise _).toAside).trans aside_lockedPulse)
        ((hc _).trans aside_lockedPulse)) (hc _)
  unfold takePulse
  split
  · exact .rfl
  · exact (hc _).trans aside_lockedPulse
  · exact hh
  · exact hh
  · exact .rfl

theorem aside_linkFault (c : LinkErrorCause) : Aside s (linkFault c s) :=
  ((aside_withLink _).trans (cueAside_raise _).toAside).trans cueAside_sendIfIdle.toAside

theorem aside_hostGap : Aside s (hostGap s) := .ite ((aside_withLink _).trans (aside_linkFault _)) .rfl

theorem aside_hostChars (cs : List LineChar) : Aside s (hostChars cs s) := by
  have ho (k : Byte) (b : List Byte) {u : State} : Aside u (offerFrame k b u) :=
    .ite (aside_withLink _) (.ite (aside_withLink _) (aside_linkFault _))
  refine aside_hostGap.trans (Aside.foldl (fun u c => ?_) _ _)
  unfold hostChar
  dsimp only
  split
  · exact .after (ho _ _) (aside_withLink _)
  · exact .after (aside_linkFault _) (aside_withLink _)
  · exact aside_withLink _

/-! The owners that send messages or write the Link Controller -/

variable {b : List Byte}

theorem aside_withFour {n : Nat} {f : Fin 4 → Answer} (h : ∀ p, Aside s (f p).state) :
    Aside s (withFour n s f).state := by
  unfold withFour
  split
  · exact h _
  · exact .rfl

theorem aside_iteAnswer {c : Prop} [Decidable c] {x y : Answer} (hx : Aside s x.state) (hy : Aside s y.state) :
    Aside s (if c then x else y).state := by
  split
  · exact hx
  · exact hy

theorem aside_done {r : List Byte} (h : Aside s t) : Aside s (done r t).state := h

theorem aside_setDriveMode : Aside s (setDriveMode b s).state := by
  unfold setDriveMode
  split
  · exact .ite .rfl (aside_arbiterEvent _)
  · exact .rfl

theorem aside_setPortClass : Aside s (setPortClass b s).state := by
  refine aside_withFour fun p => ?_
  split
  · exact .ite .rfl (aside_arbiterEvent _)
  · exact .rfl

theorem aside_pinDrive : Aside s (pinDrive b s).state := by
  have hp (x : Option PortNo) : Aside s (pinTo x s) := .ite .rfl (aside_arbiterEvent _)
  exact aside_iteAnswer (hp _) (aside_withFour fun _ => hp _)

theorem aside_resetPort : Aside s (resetPort b s).state := by
  have hd (p : PortNo) (f : Port → Port) : Aside s (updatePort p f s) := (same_updatePort _ _).aside
  exact aside_withFour fun p => Aside.trans (.ite (hd p _) ((hd p _).trans (same_setChange _ _).aside))
    (aside_leaveEnabled _ _)

theorem aside_setNotices : Aside s (setNotices b s).state :=
  aside_iteAnswer .rfl ((((aside_withLink _).trans (same_withStore _).aside).trans same_rearmTest.aside).trans
    same_storeLowTest.aside)

end aside

/-! ### The commands that leave the engine alone -/

section exec
variable {s : State}

theorem takePortMsg_aside {β : Type} {p : PortNo} {want : PortMsg → Option β} {f : β → State → State}
    (hf : ∀ x u, Aside u (f x u)) : Aside s (takePortMsg p want f s) :=
  takeHead_aside hf

theorem takeCueReportIf_aside {α : Type} (want : CueMsg → Option α) : Aside s (takeCueReportIf want s) :=
  takeHead_aside fun _ _ => cueAside_finishCueWork.toAside.trans (cueAside_withCues _).toAside

/-- The commands that the rules let change neither the engine nor the script leave the engine alone; an accepted Reset
leaves its scope behind. -/
theorem exec_aside (c : Instr) (he : .engine ∉ touches c) (hk : .script ∉ touches c) (hr : c ≠ .reset) :
    Ends (exec c s) (Aside s) := by
  cases c with
  | powerOnReset | resetTakesEffect | openStory | appendLine | closeStoryCommit | closeStoryAbandon | freeStory
  | setStory | placeEntry | moveEntry | removeEntry | floatEntry | insertLine | replaceLine | deleteLines | clearFault
  | designationReport | airFrameReport => exact absurd (by simp [touches]) hk
  | run | stop | halt | step | goTo | setSpeed | setMotion | setPreview | frameAdvance | insertReport | deleteReport
  | storyIneligibleReport | storyEligibleReport | orderChangedReport | setTarget | startStopKey | jog
  | stopExpiryAction => exact absurd (by simp [touches]) he
  | reset => exact absurd rfl hr
  | checkedFrame cs => exact event_aside fun _ => aside_hostChars cs
  | receiveFault cs => exact event_aside fun _ => aside_hostChars cs
  | frameTimeout => exact event_aside fun _ => aside_hostGap
  | unknownRequest =>
    show Aside s _
    split
    · exact .rfl
    · exact .ite (event_aside fun _ => aside_withLink _) .rfl
  | transmitNext => exact Aside.ite .rfl (event_aside fun _ => aside_transmitNext)
  | queryStory => exact runRequest_aside same_queryStory
  | queryStore => exact runRequest_aside (qs := []) fun _ => Same.rfl
  | queryOrder => exact runRequest_aside (qs := []) fun _ => Same.rfl
  | readLine => exact runRequest_aside same_readLine
  | queryFault => exact runRequest_aside (qs := []) fun _ => Same.rfl
  | queryMotion => exact runRequest_aside (qs := []) fun _ => Same.rfl
  | setDriveMode => exact runRequest_asideOf fun _ => aside_setDriveMode
  | setPortClass => exact runRequest_asideOf fun _ => aside_setPortClass
  | pinDrive => exact runRequest_asideOf fun _ => aside_pinDrive
  | claimDrive => exact runRequest_asideOf fun _ => Aside.ite .rfl (aside_arbiterEvent _)
  | releaseDrive => exact runRequest_asideOf fun _ => aside_iteAnswer (aside_done (aside_arbiterEvent _)) .rfl
  | queryDrive => exact runRequest_aside (qs := []) fun _ => Same.rfl
  | claim p => exact takePortMsg_aside fun _ _ => aside_arbiterEvent _
  | idle p => exact takePortMsg_aside fun _ _ => aside_arbiterEvent _
  | portReady p => exact takePortMsg_aside fun _ _ => aside_arbiterEvent _
  | portGone p => exact takePortMsg_aside fun _ _ => aside_arbiterEvent _
  | passHolderInput p => exact takePortMsg_aside fun _ _ => .ite (aside_withMail _) .rfl
  | standingReport p => exact takeHead_aside fun _ _ => (aside_portReady p).trans (same_updatePort _ _).aside
  | enablePort => exact runRequest_asideOf fun _ => aside_withFour fun _ => aside_iteAnswer (aside_enterEnabled _) .rfl
  | disablePort =>
    exact runRequest_asideOf fun _ => aside_withFour fun _ =>
      aside_iteAnswer ((same_updatePort _ _).aside.trans (aside_sendArbiter _ _)) .rfl
  | resetPort => exact runRequest_asideOf fun _ => aside_resetPort
  | setPort => exact runRequest_aside same_setPort
  | setLamp => exact runRequest_aside same_setLamp
  | queryPort => exact Aside.ite (event_aside fun _ => same_finishAcks.aside) (runRequest_aside same_queryPort)
  | presenceFound p =>
    exact portEvent_aside fun _ => .ite ((same_updatePort _ _).aside.trans (same_setChange _ _).aside) .rfl
  | presenceLost p =>
    exact portEvent_aside fun _ =>
      .ite (((same_updatePort _ _).aside.trans (same_setChange _ _).aside).trans (aside_leaveEnabled _ _)) .rfl
  | holdOffEnd p =>
    refine portEvent_aside fun u => ?_
    split
    · exact .ite (same_updatePort _ _).aside .rfl
    · exact .rfl
  | overcurrent p =>
    exact portEvent_aside fun _ => .ite ((same_updatePort _ _).aside.trans (aside_enterFaulted _ _)) .rfl
  | poll p => exact portEvent_aside fun _ => .ite (same_updatePort _ _).aside .rfl
  | silenceFault p => exact event_aside fun _ => aside_portReady p
  | hello p cs => exact portEvent_aside fun _ => aside_portChars p cs
  | dataReport p cs => exact portEvent_aside fun _ => aside_portChars p cs
  | releaseTimeReached p => exact event_aside fun _ => aside_sendIdle p
  | lampFlash p => exact takeHead_aside fun _ _ => (aside_portReady p).trans (same_updatePort _ _).aside
  | lampFlashEnd p => exact takeHead_aside fun _ _ => (aside_portReady p).trans (same_updatePort _ _).aside
  | cueFrameStart => exact takeHead_aside fun _ _ => cueAside_cueReady.toAside.trans (cueAside_withCues _).toAside
  | flashCountEnd => exact event_aside fun _ => cueAside_endFlash.toAside
  | cueFlagCountEnd => exact event_aside fun _ => cueAside_endCueFlag.toAside
  | timerExpiry n =>
    exact Aside.ite (event_aside fun _ =>
      ((cueAside_endFlash.trans cueAside_endCueFlag).trans (cueAside_expireTimer n)).toAside) .rfl
  | positionJumped =>
    exact takeHead_aside fun _ _ => cueAside_finishCueWork.toAside.trans (cueAside_withCues _).toAside
  | lineRewritten => exact takeCueReportIf_aside _
  | scriptChangeReport => exact takeCueReportIf_aside _
  | queryCues => exact runRequest_aside (qs := []) fun _ => Same.rfl
  | skipCue => exact runRequest_aside same_skipCue
  | setTimer => exact runRequest_aside same_setTimer
  | startTimer => exact runRequest_aside same_startTimerRequest
  | stopTimer => exact runRequest_aside same_stopTimerRequest
  | queryTimers => exact runRequest_aside (qs := []) fun _ => Same.rfl
  | freeRunFrameStart => exact event_aside fun _ => .ite aside_frameStart .rfl
  | referencePulse => exact event_aside fun _ => aside_takePulse
  | flywheelFrame =>
    exact event_aside fun _ => .ite (aside_frameStart.trans
      (.ite ((same_withClock _).aside.trans (cueAside_raise _).toAside) (same_withClock _).aside)) .rfl
  | setFrame => exact runRequest_aside same_setFrame
  | setReference => exact runRequest_aside same_setReference
  | queryFrame => exact runRequest_aside (qs := []) fun _ => Same.rfl
  | viewBuild h => exact takeHead_aside fun x _ => (same_takePublish x h).aside
  | headReady h cs => exact event_aside fun _ => (same_headChars h cs).aside
  | fetch h cs => exact event_aside fun _ => (same_headChars h cs).aside
  | headFrameDiscard h cs => exact event_aside fun _ => (same_headChars h cs).aside
  | headSilenceTimeout h =>
    exact event_aside fun _ => .ite ((same_updateHead _ _).aside.trans (cueAside_raise _).toAside) .rfl
  | headTransmit h => exact event_aside fun _ => (same_updateHead _ _).aside
  | cueFlag h => exact takeHead_aside fun _ _ => (same_updateHead _ _).aside
  | cueFlagEnd h => exact takeHead_aside fun _ _ => (same_updateHead _ _).aside
  | setHead => exact runRequest_aside same_setHead
  | queryHead => exact runRequest_aside same_queryHead
  | identify => exact runRequest_aside (qs := []) fun _ => Same.rfl
  | setNotices => exact runRequest_asideOf fun _ => aside_setNotices

end exec
end Sys2Proof.Machine

namespace Sys2Proof.Machine

/-! ### The places of the script: eligible stories and their lines (R30, R31, R65) -/

/-- A story that the scroll reads where its entry stands unfloated (R31). -/
def Story.Readable (y : Story) : Prop := y.state = .ready ∧ y.access ≠ .closed ∧ y.lines ≠ []

section places
variable {t t' : ScriptTable} {k j : Slot} {b : Nat} {es : List Entry}

theorem standing_eligible_iff (e : Entry) :
    t.standing e = .eligible ↔ e.floated = false ∧ t.stories[e.slot].Readable := by
  unfold ScriptTable.standing Story.Readable
  generalize t.stories[e.slot] = y
  cases e.floated
  · cases hs : y.state <;> by_cases ha : y.access = .closed <;> by_cases hl : y.lines = [] <;> simp [hs, ha, hl]
  · simp

/-- A story is eligible as its entry is. -/
theorem eligible_entry {e : Entry} (h : (t.order.map (·.slot)).Nodup) (he : e ∈ t.order) :
    t.eligible e.slot = true ↔ t.standing e = .eligible := by
  simp [ScriptTable.eligible, standingOf_entry h he]

theorem eligible_iff (h : (t.order.map (·.slot)).Nodup) :
    t.eligible k = true ↔ ({ slot := k, floated := false } : Entry) ∈ t.order ∧ t.stories[k].Readable := by
  constructor
  · intro hk
    obtain ⟨e, he, rfl⟩ : ∃ e ∈ t.order, e.slot = k := by
      by_contra hc
      rw [ScriptTable.eligible, standingOf_none fun e he hs => hc ⟨e, he, hs⟩] at hk
      simp at hk
    obtain ⟨hf, hr⟩ := (standing_eligible_iff e).1 ((eligible_entry h he).1 hk)
    exact ⟨(entry_mem_iff h he).2 hf, hr⟩
  · exact fun ⟨he, hr⟩ => (eligible_entry h he).2 ((standing_eligible_iff _).2 ⟨rfl, hr⟩)

theorem eligible_readable (h : (t.order.map (·.slot)).Nodup) (hk : t.eligible k = true) : t.stories[k].Readable :=
  ((eligible_iff h).1 hk).2

theorem firstEligible_some (h : t.firstEligible es = some k) : ∃ e ∈ es, e.slot = k ∧ t.standing e = .eligible := by
  obtain ⟨e, he, rfl⟩ := Option.map_eq_some_iff.1 h
  exact ⟨e, List.mem_of_find?_eq_some he, rfl, by simpa using List.find?_some he⟩

theorem firstEligible_none (h : t.firstEligible es = none) : ∀ e ∈ es, t.standing e ≠ .eligible := by
  simpa [ScriptTable.firstEligible] using h

/-- A block lies where it is found. -/
theorem locate_some {a : Slot × Nat} (h : t.locate b = some a) : t.stories[a.1].lines[a.2]? = some b := by
  obtain ⟨k, -, hk⟩ := List.exists_of_findSome?_eq_some h
  obtain ⟨i, hi, rfl⟩ := Option.map_eq_some_iff.1 hk
  obtain ⟨hlt, hb, -⟩ := List.findIdx?_eq_some_iff_getElem.1 hi
  exact List.getElem?_eq_some_iff.2 ⟨hlt, by simpa using hb⟩

theorem locate_mem {a : Slot × Nat} (h : t.locate b = some a) : b ∈ t.stories[a.1].lines :=
  List.mem_of_getElem? (locate_some h)

/-- No block lies in two stories. -/
theorem story_of_line (h : t.allLines.Nodup) (hj : b ∈ t.stories[j].lines) (hk : b ∈ t.stories[k].lines) : j = k := by
  have hp := (List.nodup_flatMap.1 h).2
  by_contra hne
  have hlen : t.stories.toList.length = 64 := by simp
  have key {i m : Slot} (hlt : i.val < m.val) (hi : b ∈ t.stories[i].lines) (hm : b ∈ t.stories[m].lines) : False := by
    have := List.pairwise_iff_getElem.1 hp i.val m.val (by simp) (by simp) hlt
    exact this (by simpa using hi) (by simpa using hm)
  rcases Nat.lt_or_gt_of_ne fun e => hne (Fin.ext e) with hlt | hlt
  · exact key hlt hj hk
  · exact key hlt hk hj

/-- A line of a story is found in it. -/
theorem locate_line (h : t.allLines.Nodup) (hb : b ∈ t.stories[k].lines) : ∃ i, t.locate b = some (k, i) := by
  cases hl : t.locate b with
  | none =>
    have hn := List.findSome?_eq_none_iff.1 hl k (List.mem_finRange k)
    simp only [Option.map_eq_none_iff, List.findIdx?_eq_none_iff] at hn
    simpa using hn b hb
  | some a =>
    obtain rfl := story_of_line h (locate_mem hl) hb
    exact ⟨a.2, rfl⟩

/-- The walk meets lines of eligible stories only. -/
theorem walk_mem (back : Bool) : ∀ es : List Entry, b ∈ (t.walk back es).1 →
    ∃ e ∈ es, t.standing e = .eligible ∧ b ∈ t.stories[e.slot].lines
  | [], h => by cases h
  | e :: es, h => by
    unfold ScriptTable.walk at h
    split at h
    · cases h
    · obtain ⟨e', he, hs⟩ := walk_mem back es h
      exact ⟨e', List.mem_cons_of_mem _ he, hs⟩
    · next hs =>
      rcases List.mem_append.1 h with hb | hb
      · refine ⟨e, List.mem_cons_self, hs, ?_⟩
        cases back <;> simpa using hb
      · obtain ⟨e', he, hs⟩ := walk_mem back es hb
        exact ⟨e', List.mem_cons_of_mem _ he, hs⟩

/-- A block and the lines of its reach lie in the line lists of eligible stories. -/
theorem reach_mem (h : (t.order.map (·.slot)).Nodup) {r : Reach} (hr : t.reach b = some r) {c : Nat}
    (hc : c ∈ b :: (r.fore ++ r.back)) : ∃ k : Slot, t.eligible k = true ∧ c ∈ t.stories[k].lines := by
  unfold ScriptTable.reach at hr
  split at hr
  · cases hr
  next k i hl =>
  split at hr
  · cases hr
  next j _ =>
  split at hr
  case isFalse => cases hr
  case isTrue hk =>
  have hown {c : Nat} (hc : c ∈ t.stories[k].lines) : ∃ k : Slot, t.eligible k = true ∧ c ∈ t.stories[k].lines :=
    ⟨k, hk, hc⟩
  have hwalk {back : Bool} {es : List Entry} (hes : ∀ e ∈ es, e ∈ t.order) (hc : c ∈ (t.walk back es).1) :
      ∃ k : Slot, t.eligible k = true ∧ c ∈ t.stories[k].lines := by
    obtain ⟨e, he, hs, hm⟩ := walk_mem back es hc
    exact ⟨e.slot, (eligible_entry h (hes e he)).2 hs, hm⟩
  cases hr
  simp only [List.mem_cons, List.mem_append, List.mem_reverse] at hc
  rcases hc with rfl | (hc | hc) | (hc | hc)
  · exact hown (locate_mem hl)
  · exact hown (List.mem_of_mem_drop hc)
  · exact hwalk (fun e he => List.mem_of_mem_drop he) hc
  · exact hown (List.mem_of_mem_take hc)
  · exact hwalk (fun e he => List.mem_of_mem_take (List.mem_reverse.1 he)) hc

/-! Two scripts that read alike -/

/-- Two scripts in which the same entries stand, with stories of the same lines, state and access. -/
structure Alike (t t' : ScriptTable) : Prop where
  order : t'.order = t.order
  lines : ∀ k : Slot, t'.stories[k].lines = t.stories[k].lines
  state : ∀ k : Slot, t'.stories[k].state = t.stories[k].state
  access : ∀ k : Slot, t'.stories[k].access = t.stories[k].access

theorem Alike.trans {t'' : ScriptTable} (h : Alike t t') (h' : Alike t' t'') : Alike t t'' where
  order := h'.order.trans h.order
  lines k := (h'.lines k).trans (h.lines k)
  state k := (h'.state k).trans (h.state k)
  access k := (h'.access k).trans (h.access k)

theorem Kin.alike (h : Kin t t') : Alike t t' := by
  constructor <;> simp [h.stories, h.order]

/-- A story written with its lines, its state and its access as they were. -/
theorem Wrote.alike {y : Story} (h : Wrote t k y t') (hl : y.lines = t.stories[k].lines)
    (hs : y.state = t.stories[k].state) (ha : y.access = t.stories[k].access) : Alike t t' := by
  have hj {α : Type} (f : Story → α) (hf : f y = f t.stories[k]) (j : Slot) : f t'.stories[j] = f t.stories[j] := by
    by_cases e : j = k
    · subst e; rw [h.self, hf]
    · rw [h.other e]
  exact ⟨h.order, hj (·.lines) hl, hj (·.state) hs, hj (·.access) ha⟩

theorem Alike.standing (h : Alike t t') : t'.standing = t.standing := by
  funext e
  simp only [ScriptTable.standing, h.lines, h.state, h.access]

theorem Alike.eligible (h : Alike t t') (k : Slot) : t'.eligible k = t.eligible k := by
  have hs : t'.standingOf k = t.standingOf k := by simp only [ScriptTable.standingOf, h.order, h.standing]
  simp only [ScriptTable.eligible, hs]

theorem Alike.locate (h : Alike t t') : t'.locate = t.locate := by
  funext b
  simp only [ScriptTable.locate, h.lines]

theorem Alike.firstEligible (h : Alike t t') : t'.firstEligible = t.firstEligible := by
  funext es
  simp only [ScriptTable.firstEligible, h.standing]

end places

/-! ### The live position and the reports (R66, R88 to R90)

Of the engine the script-change reports read and move only where its position stands and which slot it holds. -/

/-- A position, or VOID, with the slot held for it. -/
abbrev Place := Option Pos × Option Slot

/-- Where the engine's live position stands, with the slot that it designates. -/
def Engine.place (e : Engine) : Place := (e.live, e.liveSlot)

/-- The slot that a settled position designates: that of its block, the one held before where no story holds the block. -/
def ScriptTable.designated (t : ScriptTable) (p : Option Pos) (held : Option Slot) : Option Slot :=
  match p with
  | none => none
  | some q => ((t.locate q.block).map (·.1)).or held

/-- The place after a jump. -/
def ScriptTable.settle (t : ScriptTable) (p : Option Pos) (held : Option Slot) : Place := (p, t.designated p held)

/-- Where a script-change report moves the live position (R66, R88 to R90). -/
def ScriptTable.moves (t : ScriptTable) (x : Place) : ScriptReport → Place
  | .insert _ _ _ | .orderChanged => x
  | .delete k first run =>
    match x.1 with
    | some p =>
      if p.block ∈ run then
        match t.afterRun k first with
        | some b => t.settle (some { block := b, sub := 0 }) x.2
        | none => x
      else x
    | none => x
  | .ineligible k index => if x.1.isSome ∧ x.2 = some k then t.settle (relocated t index) x.2 else x
  | .eligible _ =>
    match x.1 with
    | some _ => x
    | none =>
      match (t.firstEligible t.order).bind t.firstLine with
      | some p => t.settle (some p) x.2
      | none => x

section engine
variable {s : State}

/-- An entry into HALTED, in the engine. -/
theorem enterHalted_engine (c : HaltCause) : (enterHalted c s).engine =
    if s.engine.motion = .halted then s.engine else s.engine.halt c s.clock.counter := by
  unfold enterHalted
  split <;> rfl

@[simp] theorem enterHalted_place (c : HaltCause) : (enterHalted c s).engine.place = s.engine.place := by
  rw [enterHalted_engine]
  split <;> rfl

@[simp] theorem enterHalted_script (c : HaltCause) : (enterHalted c s).script = s.script :=
  (same_enterHalted c).script (by decide)

/-- A Designation changes the engine by the slot it holds. -/
theorem designate_engine : (designate s).engine =
    { s.engine with liveSlot := s.script.designated s.engine.live s.engine.liveSlot } := by
  cases hp : s.engine.live with
  | none => simp only [designate, ScriptTable.designated, hp]; rw [← hp]; rfl
  | some p =>
    cases hl : s.script.locate p.block with
    | none => simp only [designate, ScriptTable.designated, hp, hl, Option.map_none, Option.none_or]; rw [← hp]
    | some a =>
      simp only [designate, ScriptTable.designated, hp, hl, Option.map_some, Option.some_or]
      rw [← hp]
      split
      · next h => rw [← h]
      · rfl

theorem jump_engine (p : Option Pos) : (jump p s).engine =
    { s.engine with live := p, liveSlot := s.script.designated p s.engine.liveSlot } :=
  designate_engine (s := setLive p s)

@[simp] theorem jump_place (p : Option Pos) : (jump p s).engine.place = s.script.settle p s.engine.liveSlot := by
  rw [jump_engine]; rfl

@[simp] theorem endGoalIf_place (gone : Nat → Bool) : (endGoalIf gone s).engine.place = s.engine.place := by
  unfold endGoalIf
  split
  · split
    · exact enterHalted_place _
    · rfl
  · rfl

/-- What a report makes of the live position. -/
theorem takeReport_place (r : ScriptReport) : (takeReport r s).engine.place = s.script.moves s.engine.place r := by
  cases r with
  | insert | orderChanged => rfl
  | delete k first run =>
    have hp : (previewAfterDelete k first run s).engine.place = s.engine.place := by
      unfold previewAfterDelete
      split
      · split <;> rfl
      · rfl
    have hs : (previewAfterDelete k first run s).script = s.script := (same_previewAfterDelete _ _ _).script (by decide)
    simp only [takeReport, takeDelete, endGoalIf_place, ScriptTable.moves]
    generalize previewAfterDelete k first run s = u at hp hs
    rw [← hp, ← hs]
    cases hl : u.engine.live with
    | none => simp only [liveAfterDelete, Engine.place, hl]
    | some p =>
      cases ha : u.script.afterRun k first with
      | none => simp only [liveAfterDelete, Engine.place, hl, ha, ite_self]
      | some b =>
        simp only [liveAfterDelete, Engine.place, hl, ha]
        split
        · exact jump_place _
        · rw [hl]
  | ineligible k index =>
    simp only [takeReport, takeIneligible, endGoalIf_place, ScriptTable.moves]
    show _ = if s.engine.live.isSome = true ∧ s.engine.liveSlot = some k then _ else _
    split
    · rw [jump_place, enterHalted_script]
      exact congrArg (fun x : Place => s.script.settle _ x.2) (enterHalted_place _)
    · rfl
  | eligible k =>
    simp only [takeReport, takeEligible, ScriptTable.moves, Engine.place]
    cases hl : s.engine.live with
    | some p => simp only [hl]
    | none =>
      cases (s.script.firstEligible s.script.order).bind s.script.firstLine with
      | none => simp only [hl]
      | some p => exact jump_place _

@[simp] theorem takeReport_script (r : ScriptReport) : (takeReport r s).script = s.script :=
  (same_takeReport r).script (by decide)

@[simp] theorem takeReports_script : (takeReports s).script = s.script := same_takeReports.script (by decide)

/-- Taking every report that waits moves the live position by one report after another. -/
theorem takeReports_place : (takeReports s).engine.place =
    (s.mail.engineReports.map (·.body)).foldl s.script.moves s.engine.place := by
  have h : ∀ (rs : List (Msg ScriptReport)) (u : State),
      (rs.foldl takeWaiting u).engine.place = (rs.map (·.body)).foldl u.script.moves u.engine.place := by
    intro rs
    induction rs with
    | nil => exact fun _ => rfl
    | cons m rs ih =>
      intro u
      have hs : (takeWaiting u m).script = u.script := takeReport_script m.body
      have hp : (takeWaiting u m).engine.place = u.script.moves u.engine.place m.body := takeReport_place m.body
      rw [List.foldl_cons, ih, hs, hp]
      rfl
  exact h s.mail.engineReports (s.withReports [])

/-- A position is in place when it is VOID with no story eligible, or lies in the eligible
story that it designates. -/
structure ScriptTable.Places (t : ScriptTable) (x : Place) : Prop where
  void : x.1 = none → x.2 = none ∧ ∀ k : Slot, t.eligible k = false
  placed : ∀ p, x.1 = some p → ∃ k : Slot, x.2 = some k ∧ t.eligible k = true ∧ p.block ∈ t.stories[k].lines

theorem livePlaced_iff : LivePlaced s ↔ s.script.Places s.engine.place :=
  ⟨fun h => ⟨h.void, h.placed⟩, fun h => ⟨h.void, h.placed⟩⟩

theorem livePlaced_takeReports : LivePlaced (takeReports s) ↔
    s.script.Places ((s.mail.engineReports.map (·.body)).foldl s.script.moves s.engine.place) := by
  rw [livePlaced_iff, takeReports_script, takeReports_place]

end engine

section alike
variable {t t' : ScriptTable}

theorem Alike.moves (h : Alike t t') : t'.moves = t.moves := by
  have hs (p : Option Pos) (k : Option Slot) : t'.settle p k = t.settle p k := by
    simp only [ScriptTable.settle, ScriptTable.designated, h.locate]
  have ha : t'.afterRun = t.afterRun := by
    funext k i
    simp only [ScriptTable.afterRun, h.lines]
  have hf : t'.firstLine = t.firstLine := by
    funext k
    simp only [ScriptTable.firstLine, h.lines]
  have hl : t'.lastLine = t.lastLine := by
    funext k
    simp only [ScriptTable.lastLine, h.lines]
  have hr : relocated t' = relocated t := by
    funext i
    simp only [relocated, hf, hl, h.firstEligible, h.order]
  funext x r
  cases r <;> simp only [ScriptTable.moves, hs, hr, ha, hf, h.firstEligible, h.order]

theorem Alike.places (h : Alike t t') {x : Place} (hx : t.Places x) : t'.Places x where
  void hv := ⟨(hx.void hv).1, fun k => (h.eligible k).trans ((hx.void hv).2 k)⟩
  placed p hp := by
    obtain ⟨k, hk, he, hb⟩ := hx.placed p hp
    exact ⟨k, hk, (h.eligible k).trans he, (h.lines k).symm ▸ hb⟩

end alike

end Sys2Proof.Machine

namespace Sys2Proof.Machine

/-! ### A change of the script and the reports that it sends (R39, R66, R88 to R90)

A request changes one story or its entry. Taken in their order, the reports that it sends put the live position in place in
the script as changed. -/

/-- Every story but one is as eligible as it was, and has the lines that it had. -/
def Touches (k : Slot) (t t' : ScriptTable) : Prop :=
  ∀ j : Slot, j ≠ k → t'.eligible j = t.eligible j ∧ t'.stories[j].lines = t.stories[j].lines

/-- A script in which no block lies in two stories and no slot stands twice in the running order. -/
structure ScriptTable.Distinct (t : ScriptTable) : Prop where
  lines : t.allLines.Nodup
  order : (t.order.map (·.slot)).Nodup

/-- A position in place in the script before a change, whose block the change has left in its story where that story is
eligible still. -/
structure Loose (t t' : ScriptTable) (x : Place) : Prop where
  void : x.1 = none → x.2 = none ∧ ∀ k : Slot, t.eligible k = false
  placed : ∀ p, x.1 = some p →
    ∃ k : Slot, x.2 = some k ∧ t.eligible k = true ∧ (t'.eligible k = true → p.block ∈ t'.stories[k].lines)

theorem TextInv.distinct {s : State} (h : TextInv s) : s.script.Distinct :=
  ⟨(List.nodup_append.1 h.1.nodup).2.1, h.2.distinct⟩

section change
variable {t t' : ScriptTable} {k : Slot} {x : Place}

/-- A jump to a line of an eligible story puts the position in place. -/
theorem settle_places (h : t.Distinct) {p : Pos} (hk : t.eligible k = true) (hp : p.block ∈ t.stories[k].lines)
    (held : Option Slot) : t.Places (t.settle (some p) held) := by
  obtain ⟨i, hi⟩ := locate_line h.lines hp
  refine ⟨nofun, fun q hq => ?_⟩
  obtain rfl : p = q := Option.some.inj hq
  exact ⟨k, by simp [ScriptTable.settle, ScriptTable.designated, hi], hk, hp⟩

theorem settle_firstLine (h : t.Distinct) (hk : t.eligible k = true) (held : Option Slot) :
    ∃ p, t.firstLine k = some p ∧ t.Places (t.settle (some p) held) := by
  obtain ⟨-, -, hl⟩ := eligible_readable h.order hk
  obtain ⟨b, hb⟩ := Option.isSome_iff_exists.1 (List.isSome_head?.2 hl)
  exact ⟨_, by rw [ScriptTable.firstLine, hb]; rfl, settle_places h hk (List.mem_of_head? hb) held⟩

theorem settle_lastLine (h : t.Distinct) (hk : t.eligible k = true) (held : Option Slot) :
    ∃ p, t.lastLine k = some p ∧ t.Places (t.settle (some p) held) := by
  obtain ⟨-, -, hl⟩ := eligible_readable h.order hk
  exact ⟨_, by rw [ScriptTable.lastLine, List.getLast?_eq_some_getLast hl]; rfl,
    settle_places h hk (List.getLast_mem hl) held⟩

theorem firstEligible_eligible (h : t.Distinct) {es : List Entry} (hes : ∀ e ∈ es, e ∈ t.order)
    (hk : t.firstEligible es = some k) : t.eligible k = true := by
  obtain ⟨e, he, rfl, hs⟩ := firstEligible_some hk
  exact (eligible_entry h.order (hes e he)).2 hs

/-- With no entry eligible no story is. -/
theorem eligible_false (h : t.Distinct) (hs : ∀ e ∈ t.order, t.standing e ≠ .eligible) (k : Slot) :
    t.eligible k = false := by
  by_contra hk
  have he := (eligible_iff h.order).1 (by simpa using hk)
  exact hs _ he.1 ((standing_eligible_iff _).2 ⟨rfl, he.2⟩)

theorem firstEligible_order (h : t.Distinct) (hk : t.eligible k = true) : t.firstEligible t.order ≠ none := fun hn => by
  rw [eligible_false h (firstEligible_none hn)] at hk
  cases hk

/-- The reading line that leaves a story stands in place where it is put: behind, before, or VOID (R90). -/
theorem relocated_places (h : t.Distinct) (i : Nat) (held : Option Slot) :
    t.Places (t.settle (relocated t i) held) := by
  unfold relocated
  cases hf : t.firstEligible (t.order.drop i) with
  | some k =>
    obtain ⟨p, hp, hx⟩ := settle_firstLine h (firstEligible_eligible h (fun _ => List.mem_of_mem_drop) hf) held
    simpa only [hp] using hx
  | none =>
    cases hb : t.firstEligible (t.order.take i).reverse with
    | some k =>
      have hk := firstEligible_eligible h (fun _ he => List.mem_of_mem_take (List.mem_reverse.1 he)) hb
      obtain ⟨p, hp, hx⟩ := settle_lastLine h hk held
      simpa only [Option.bind_some, hp] using hx
    | none =>
      refine ⟨fun _ => ⟨rfl, eligible_false h fun e he => ?_⟩, nofun⟩
      rcases List.mem_append.1 (List.take_append_drop i t.order ▸ he) with ht | hd
      · exact firstEligible_none hb e (List.mem_reverse.2 ht)
      · exact firstEligible_none hf e hd

/-- A change that leaves a story as eligible as it was puts nothing out of place. -/
theorem Loose.places (h : Loose t t' x) (ht : Touches k t t') (he : t'.eligible k = t.eligible k) : t'.Places x := by
  have hall (j : Slot) : t'.eligible j = t.eligible j := by
    by_cases hj : j = k
    · exact hj ▸ he
    · exact (ht j hj).1
  refine ⟨fun hv => ⟨(h.void hv).1, fun j => (hall j).trans ((h.void hv).2 j)⟩, fun p hp => ?_⟩
  obtain ⟨j, hj, hje, hb⟩ := h.placed p hp
  have hje' := (hall j).trans hje
  exact ⟨j, hj, hje', hb hje'⟩

/-- The report that a story has become ineligible takes the reading line out of it (R90). -/
theorem Loose.ineligible (h : Loose t t' x) (hd : t'.Distinct) (ht : Touches k t t') (hk : t.eligible k = true) (i : Nat) :
    t'.Places (t'.moves x (.ineligible k i)) := by
  simp only [ScriptTable.moves]
  split
  · exact relocated_places hd _ _
  · next hc =>
    refine ⟨fun hv => ?_, fun p hp => ?_⟩
    · rw [(h.void hv).2 k] at hk
      cases hk
    · obtain ⟨j, hj, hje, hb⟩ := h.placed p hp
      have hne : j ≠ k := fun e => hc ⟨by rw [hp]; rfl, e ▸ hj⟩
      have hje' := (ht j hne).1.trans hje
      exact ⟨j, hj, hje', hb hje'⟩

/-- The report that a story has become eligible gives a VOID position a place (R66). -/
theorem Loose.eligible (h : Loose t t' x) (hd : t'.Distinct) (ht : Touches k t t') (hk : t.eligible k = false)
    (hk' : t'.eligible k = true) : t'.Places (t'.moves x (.eligible k)) := by
  obtain ⟨_ | p, held⟩ := x
  · obtain ⟨f, hf⟩ := Option.ne_none_iff_exists'.1 (firstEligible_order hd hk')
    obtain ⟨q, hq, hx⟩ := settle_firstLine hd (firstEligible_eligible hd (fun _ he => he) hf) held
    simpa only [ScriptTable.moves, hf, Option.bind_some, hq] using hx
  · refine ⟨nofun, fun q hq => ?_⟩
    obtain ⟨j, hj, hje, hb⟩ := h.placed q hq
    have hne : j ≠ k := fun e => by rw [e, hk] at hje; cases hje
    have hje' := (ht j hne).1.trans hje
    exact ⟨j, hj, hje', hb hje'⟩

theorem reportsOf_lead (lead : List ScriptReport) : reportsOf lead k t t' = lead ++ reportsOf [] k t t' := by
  simp [reportsOf]

/-- The reports of a change of standing put a loose position in place. -/
theorem Loose.reports (h : Loose t t' x) (hd : t'.Distinct) (ht : Touches k t t') :
    t'.Places ((reportsOf [] k t t').foldl t'.moves x) := by
  have hlast (y : Place) (c : Prop) [Decidable c] :
      (if c then [ScriptReport.orderChanged] else []).foldl t'.moves y = y := by
    split <;> rfl
  unfold reportsOf
  cases hk : t.eligible k <;> cases hk' : t'.eligible k <;>
    simp only [List.nil_append, List.foldl_append, List.foldl_nil, List.foldl_cons, hlast, Bool.not_true, Bool.not_false,
      Bool.false_eq_true, and_false, and_true, and_self, if_true, if_false]
  · exact h.places ht (hk'.trans hk.symm)
  · exact h.eligible hd ht hk hk'
  · exact h.ineligible hd ht hk _
  · exact h.places ht (hk'.trans hk.symm)

/-- A change that leaves the lines of the story it touches, where that story was eligible. -/
theorem Touches.loose (ht : Touches k t t') (hx : t.Places x)
    (hk : t.eligible k = true → ∀ b ∈ t.stories[k].lines, b ∈ t'.stories[k].lines) : Loose t t' x where
  void := hx.void
  placed p hp := by
    obtain ⟨j, hj, hje, hb⟩ := hx.placed p hp
    refine ⟨j, hj, hje, fun _ => ?_⟩
    by_cases hjk : j = k
    · subst hjk; exact hk hje _ hb
    · rw [(ht j hjk).2]; exact hb

/-- A line beside a deleted run is one of the lines that are left; there is none only where no line is left (R89). -/
theorem afterRun_mem {i b : Nat} (h : t.afterRun k i = some b) : b ∈ t.stories[k].lines := by
  rcases Option.or_eq_some_iff.1 h with hb | ⟨-, hb⟩
  · exact List.mem_of_getElem? hb
  · exact List.mem_of_getLast? hb

theorem afterRun_none {i : Nat} (h : t.afterRun k i = none) : t.stories[k].lines = [] :=
  List.getLast?_eq_none_iff.1 (Option.or_eq_none_iff.1 h).2

/-- The delete report moves the reading line off the run, within its story while a line is left there (R89). -/
theorem Touches.loose_delete (ht : Touches k t t') (hx : t.Places x) (hd : t.Distinct) (hd' : t'.Distinct)
    {first : Nat} {run : List Nat} (hrun : ∀ b ∈ run, b ∈ t.stories[k].lines)
    (hk : ∀ b ∈ t.stories[k].lines, b ∉ run → b ∈ t'.stories[k].lines) :
    Loose t t' (t'.moves x (.delete k first run)) := by
  obtain ⟨_ | p, held⟩ := x
  · exact ⟨fun _ => hx.void rfl, nofun⟩
  obtain ⟨j, hj, hje, hb⟩ := hx.placed p rfl
  simp only [ScriptTable.moves]
  split
  case isFalse hp =>
    refine ⟨nofun, fun q hq => ⟨j, hj, hje, fun _ => ?_⟩⟩
    obtain rfl : p = q := Option.some.inj hq
    by_cases hjk : j = k
    · subst hjk; exact hk _ hb hp
    · rw [(ht j hjk).2]; exact hb
  case isTrue hp =>
    obtain rfl : j = k := story_of_line hd.lines hb (hrun _ hp)
    cases ha : t'.afterRun j first with
    | none =>
      refine ⟨nofun, fun q _ => ⟨j, hj, hje, fun he => ?_⟩⟩
      exact absurd (afterRun_none ha) (eligible_readable hd'.order he).2.2
    | some b =>
      obtain ⟨i, hi⟩ := locate_line hd'.lines (afterRun_mem ha)
      refine ⟨nofun, fun q hq => ⟨j, ?_, hje, fun _ => ?_⟩⟩
      · simp [ScriptTable.settle, ScriptTable.designated, hi]
      · obtain rfl : _ = q := Option.some.inj hq
        exact afterRun_mem ha

end change
end Sys2Proof.Machine

namespace Sys2Proof.Machine

/-! ### The requests of the script, and the live position (R24 to R37, R43 to R51)

A request is taken only when every report has been (R182), so its change and the reports it sends are all that stands
between the live position and its place. -/

section touches
variable {t t' : ScriptTable} {k : Slot}

theorem allLines_eq (t : ScriptTable) : t.allLines = (List.finRange 64).flatMap (fun k => t.stories[k].lines) := by
  have h : t.stories.toList = (List.finRange 64).map (fun k => t.stories[k]) := List.ext_getElem (by simp) (by simp)
  rw [ScriptTable.allLines, h, List.flatMap_map]

theorem Alike.distinct (h : Alike t t') (hd : t.Distinct) : t'.Distinct where
  lines := by
    have hl : t'.allLines = t.allLines := by simp only [allLines_eq, h.lines]
    exact hl ▸ hd.lines
  order := h.order ▸ hd.order

/-- The other stories keep their descriptors and their entries. -/
theorem touches_of (hd : t.Distinct) (hd' : t'.Distinct) (hs : ∀ j, j ≠ k → t'.stories[j] = t.stories[j])
    (ho : ∀ e : Entry, e.slot ≠ k → (e ∈ t'.order ↔ e ∈ t.order)) : Touches k t t' := by
  refine fun j hj => ⟨?_, by rw [hs j hj]⟩
  rw [Bool.eq_iff_iff, eligible_iff hd.order, eligible_iff hd'.order, hs j hj, ho _ hj]

theorem Wrote.touches {y : Story} (h : Wrote t k y t') (hd : t.Distinct) (hd' : t'.Distinct) : Touches k t t' :=
  touches_of hd hd' (fun _ hj => h.other hj) fun e _ => by rw [h.order]

/-- A story that is not READY is not eligible. -/
theorem eligible_notReady (hd : t.Distinct) (h : t.stories[k].state ≠ .ready) : t.eligible k = false := by
  by_contra hk
  exact h (eligible_readable hd.order (by simpa using hk)).1

end touches

/-- A part that carries out a request: no report waits, no Reset waits, and the live position is in place. -/
structure Settled (s : State) : Prop where
  text : TextInv s
  reports : s.mail.engineReports = []
  cause : s.cause = true
  scope : s.link.resetScope = none
  place : s.script.Places s.engine.place

/-- What a request does before it changes the script: of what the engine goes by, nothing. -/
structure Prepared (s w : State) : Prop where
  alike : Alike s.script w.script
  engine : w.engine = s.engine
  reports : w.mail.engineReports = s.mail.engineReports
  cause : w.cause = s.cause
  scope : w.link.resetScope = s.link.resetScope

section settled
variable {s w t : State} {b : List Byte}

theorem Prepared.rfl : Prepared s s := ⟨Kin.rfl.alike, Eq.refl _, Eq.refl _, Eq.refl _, Eq.refl _⟩

/-- With no report waiting, a position in place is all there is to keep. -/
theorem LiveInv.of_empty (hr : s.mail.engineReports = []) (hp : s.script.Places s.engine.place) : LiveInv s where
  reports m hm := by rw [hr] at hm; cases hm
  reset _ := hr
  live := (takeReports_none hr).symm ▸ livePlaced_iff.2 hp

theorem Settled.live (h : Settled s) : LiveInv s := .of_empty h.reports h.place

/-- A request that sends no report. -/
theorem Settled.quiet (h : Settled s) (hw : Prepared s w) : LiveInv w :=
  .of_empty (hw.reports.trans h.reports) (hw.engine ▸ hw.alike.places h.place)

/-- A request that changes the script and sends the reports of the change. -/
theorem Settled.change (h : Settled s) (hw : Prepared s w) {lead : List ScriptReport} {k : Slot} {x : ScriptTable}
    (hd : x.Distinct) (ht : Touches k w.script x) (hl : Loose w.script x (lead.foldl x.moves s.engine.place)) :
    LiveInv (changeScript lead k x w) := by
  have hr : (changeScript lead k x w).mail.engineReports = (reportsOf lead k w.script x).map (w.withScript x).msg := by
    simp [changeScript, sendReports, hw.reports, h.reports]
  have hc : (w.withScript x).cause = true := hw.cause.trans h.cause
  have hn : (changeScript lead k x w).link.resetScope = none := hw.scope.trans h.scope
  have hb : (changeScript lead k x w).mail.engineReports.map (·.body) = reportsOf lead k w.script x := by
    simp [hr, State.msg, Function.comp_def]
  refine ⟨fun m hm => ?_, fun hs => ?_, livePlaced_takeReports.2 ?_⟩
  · rw [hr] at hm
    obtain ⟨r, -, rfl⟩ := List.mem_map.1 hm
    exact hc
  · rw [hn] at hs; cases hs
  · rw [hb, reportsOf_lead, List.foldl_append]
    have he : (changeScript lead k x w).engine = s.engine := hw.engine
    rw [he]
    exact hl.reports hd ht

/-- ... where it leaves no line out of the story it touches. -/
theorem Settled.change_lines (h : Settled s) (hw : Prepared s w) {k : Slot} {x : ScriptTable}
    (hd : x.Distinct) (ht : Touches k w.script x)
    (hk : w.script.eligible k = true → ∀ n ∈ w.script.stories[k].lines, n ∈ x.stories[k].lines) :
    LiveInv (changeScript [] k x w) :=
  h.change hw hd ht (ht.loose (hw.alike.places h.place) hk)

/-! Stories and the load -/

/-- A story that is not eligible, before a change and after it. -/
theorem Settled.unmoved (h : Settled s) {k : Slot} {x : ScriptTable} (ht : Touches k s.script x)
    (hk : s.script.eligible k = false) (hk' : x.eligible k = false) : x.Places s.engine.place :=
  (ht.loose h.place fun e => by rw [hk] at e; cases e).places ht (hk'.trans hk.symm)

theorem openStory_live (h : Settled s) : LiveInv (openStory b s).state := by
  have hk := openStory_keeps (b := b) h.text
  obtain e | ⟨k, limit, access, hf, -, -, -, e⟩ := openStory_inv (b := b) (s := s) rfl
  · rw [e]; exact h.live
  rw [e] at hk ⊢
  refine .of_empty h.reports (h.unmoved (k := k) ?_ (eligible_notReady h.text.distinct (by rw [hf]; nofun))
    (eligible_notReady hk.distinct fun e => ?_))
  · exact touches_of h.text.distinct hk.distinct (fun j hj => withStory_other _ _ hj) fun e _ => Iff.rfl
  · exact absurd ((congrArg Story.state (withStory_self s.script k _)).symm.trans e) nofun

theorem appendLine_live (h : Settled s) : LiveInv (appendLine b s).state := by
  have hk := appendLine_keeps (b := b) h.text
  have hm := (same_appendLine (s := s) b)
  obtain e | ⟨k, n, rest, r, hl, -, -, -, hw⟩ := appendLine_inv (b := b) (s := s) rfl
  all_goals refine .of_empty (by rw [hm.mail (by decide)]; exact h.reports) ?_
  all_goals rw [hm.engine (by decide)]
  · exact e.script.alike.places h.place
  · have hst : s.script.stories[k].state = .loading := (h.text.2.loading k).2 hl
    refine h.unmoved (hw.touches h.text.distinct hk.distinct) (eligible_notReady h.text.distinct (by rw [hst]; nofun))
      (eligible_notReady hk.distinct ?_)
    rw [hw.self, hst]; nofun

theorem closeCommit_live (h : Settled s) : LiveInv (closeCommit b s).state := by
  have hk := closeCommit_keeps (b := b) h.text
  generalize ht : (closeCommit b s).state = t at hk ⊢
  unfold closeCommit at ht
  split at ht
  · exact ht ▸ h.live
  split at ht
  · exact ht ▸ h.live
  next k hl =>
  subst ht
  have hst : s.script.stories[k].state = .loading := (h.text.2.loading k).2 hl
  have hd := hk.distinct
  refine h.change_lines .rfl hd (touches_of h.text.distinct hd (fun j hj => withStory_other _ _ hj) fun e _ => Iff.rfl)
    fun he => ?_
  rw [eligible_notReady h.text.distinct (by rw [hst]; nofun)] at he
  cases he

theorem prepared_returnRun (run : List Nat) : Prepared s (returnRun run s) where
  alike := by rw [returnRun_script]; exact Kin.rfl.alike
  engine := (same_returnRun run).engine (by decide)
  reports := by rw [(same_returnRun run).mail (by decide)]
  cause := by unfold returnRun rearmTest; split <;> rfl
  scope := by rw [returnRun_link]

theorem closeAbandon_live (h : Settled s) : LiveInv (closeAbandon b s).state := by
  have hk := closeAbandon_keeps (b := b) h.text
  generalize ht : (closeAbandon b s).state = t at hk ⊢
  unfold closeAbandon at ht
  split at ht
  · exact ht ▸ h.live
  next k hl =>
  subst ht
  have hst : s.script.stories[k].state = .loading := (h.text.2.loading k).2 hl
  have hd := hk.distinct
  refine h.change_lines (prepared_returnRun _) hd ?_ fun he => ?_
  · rw [returnRun_script]
    refine touches_of h.text.distinct hd (fun j hj => withStory_other _ _ hj) fun e he => ?_
    show e ∈ s.script.order.filter (fun e => e.slot ≠ k) ↔ _
    simp [he]
  · rw [returnRun_script, eligible_notReady h.text.distinct (by rw [hst]; nofun)] at he
    cases he

theorem freeStory_live (h : Settled s) : LiveInv (freeStory b s).state := by
  have hk := freeStory_keeps (b := b) h.text
  generalize ht : (freeStory b s).state = t at hk ⊢
  obtain rfl | ⟨k, -, ht⟩ := withSlot_inv ht
  · exact h.live
  dsimp only at ht
  split at ht
  · exact ht ▸ h.live
  · exact ht ▸ h.live
  split at ht
  · exact ht ▸ h.live
  subst ht
  have hd := hk.distinct
  have htouch : Touches k (returnRun s.script.stories[k].lines s).script (s.script.withStory k Story.free) := by
    rw [returnRun_script]
    exact wrote_withStory.touches h.text.distinct hd
  refine h.change (prepared_returnRun _) hd htouch ?_
  split
  · next hl =>
    refine htouch.loose (by rw [returnRun_script]; exact h.place) fun _ n hn => ?_
    rw [returnRun_script, List.isEmpty_iff.1 hl] at hn
    cases hn
  · refine htouch.loose_delete (by rw [returnRun_script]; exact h.place) (by rw [returnRun_script]; exact h.text.distinct) hd
      (fun n hn => by rwa [returnRun_script]) fun n hn hr => ?_
    rw [returnRun_script] at hn
    exact absurd hn hr

/-- The Live Slot check takes the request's reports and airs a story at most (R21). -/
theorem liveSlotCheck_live (k : Slot) (h : LiveInv s) : LiveInv (liveSlotCheck k s) := by
  have hr : (takeReports s).mail.engineReports = [] := takeReports_engineReports
  have hp := livePlaced_iff.1 h.live
  unfold liveSlotCheck
  dsimp only
  split
  · have hd := same_designation (s := takeReports s) k
    have ha : Alike (takeReports s).script (designation k (takeReports s)).script := by
      obtain e | ⟨-, e⟩ := designation_inv k (takeReports s)
      · exact e.alike
      · exact e.alike rfl rfl rfl
    exact .of_empty (by rw [hd.mail (by decide)]; exact hr) (hd.engine (by decide) ▸ ha.places hp)
  · exact .of_empty hr hp

theorem setStory_live (h : Settled s) : LiveInv (setStory b s).state := by
  generalize ht : (setStory b s).state = t
  obtain rfl | ⟨k, -, ht⟩ := withSlot_inv ht
  · exact h.live
  dsimp only at ht
  split at ht
  · exact ht ▸ h.live
  split at ht
  · exact ht ▸ h.live
  split at ht
  · exact ht ▸ h.live
  · exact ht ▸ h.live
  subst ht
  refine liveSlotCheck_live k ?_
  generalize hy : ({ s.script.stories[k] with
    access := _, limit := _, slug := _, aired := false, changed := false, airFrames := 0 } : Story) = y
  have hl : y.lines = s.script.stories[k].lines := by rw [← hy]
  have hd : (s.script.withStory k y).Distinct :=
    ⟨(wrote_withStory.allLines_kept hl).nodup_iff.2 h.text.distinct.lines, h.text.distinct.order⟩
  refine h.change_lines .rfl hd (wrote_withStory.touches h.text.distinct hd) fun _ n hn => ?_
  rw [withStory_self, hl]
  exact hn

/-! The running order -/

/-- A change of the order that leaves every entry but one. -/
theorem Settled.change_order (h : Settled s) {order : List Entry} {k : Slot}
    (hk : TextInv (changeScript [] k { s.script with order := order } s))
    (ho : ∀ e : Entry, e.slot ≠ k → (e ∈ order ↔ e ∈ s.script.order)) :
    LiveInv (changeScript [] k { s.script with order := order } s) :=
  have hd : ({ s.script with order := order } : ScriptTable).Distinct := hk.distinct
  h.change_lines .rfl hd (touches_of h.text.distinct hd (fun _ _ => rfl) ho) fun _ _ hn => hn

theorem placeEntry_live (h : Settled s) : LiveInv (placeEntry b s).state := by
  have hk := placeEntry_keeps (b := b) h.text
  generalize ht : (placeEntry b s).state = t at hk ⊢
  obtain rfl | ⟨k, -, ht⟩ := withSlot_inv ht
  · exact h.live
  dsimp only at ht
  split at ht
  · exact ht ▸ h.live
  split at ht
  · exact ht ▸ h.live
  split at ht
  · exact ht ▸ h.live
  subst ht
  refine h.change_order hk fun e he => ?_
  rw [(insertEntry_perm _ _ _).mem_iff, List.mem_cons, or_iff_right fun heq => he (by rw [heq])]

theorem moveEntry_live (h : Settled s) : LiveInv (moveEntry b s).state := by
  have hk := moveEntry_keeps (b := b) h.text
  generalize ht : (moveEntry b s).state = t at hk ⊢
  unfold moveEntry at ht
  dsimp only at ht
  split at ht
  · exact ht ▸ h.live
  next e he =>
  split at ht
  · exact ht ▸ h.live
  split at ht
  · exact ht ▸ h.live
  subst ht
  obtain ⟨hlt, rfl⟩ := List.getElem?_eq_some_iff.1 he
  refine h.change_order hk fun f _ => ?_
  exact ((insertEntry_perm _ _ _).trans (List.getElem_cons_eraseIdx_perm hlt)).mem_iff

theorem removeEntry_live (h : Settled s) : LiveInv (removeEntry b s).state := by
  have hk := removeEntry_keeps (b := b) h.text
  generalize ht : (removeEntry b s).state = t at hk ⊢
  unfold removeEntry at ht
  dsimp only at ht
  split at ht
  · exact ht ▸ h.live
  next e he =>
  subst ht
  obtain ⟨hlt, rfl⟩ := List.getElem?_eq_some_iff.1 he
  refine h.change_order hk fun f hf => ?_
  rw [← (List.getElem_cons_eraseIdx_perm hlt).mem_iff, List.mem_cons, or_iff_right fun heq => hf (by rw [heq])]

theorem floatEntry_live (h : Settled s) : LiveInv (floatEntry b s).state := by
  have hk := floatEntry_keeps (b := b) h.text
  generalize ht : (floatEntry b s).state = t at hk ⊢
  unfold floatEntry at ht
  dsimp only at ht
  split at ht
  · next e on he _ =>
    split at ht
    · exact ht ▸ h.live
    subst ht
    obtain ⟨hlt, rfl⟩ := List.getElem?_eq_some_iff.1 he
    refine h.change_order hk fun f hf => ?_
    rw [(List.set_perm_cons_eraseIdx hlt _).mem_iff, ← (List.getElem_cons_eraseIdx_perm hlt).mem_iff, List.mem_cons,
      List.mem_cons, or_iff_right fun heq => hf (by rw [heq]), or_iff_right fun heq => hf (by rw [heq])]
  · exact ht ▸ h.live

/-! Editing on air -/

theorem prepared_noteEdit (e : EditKind) (k : Slot) (i : Nat) (d : Int) : Prepared s (noteEdit e k i d s) where
  alike := by
    obtain ⟨c, hw⟩ := noteEdit_wrote e k i d s
    exact hw.alike rfl rfl rfl
  engine := (same_noteEdit e k i d).engine (by decide)
  reports := by rw [(same_noteEdit e k i d).mail (by decide)]
  cause := by
    unfold noteEdit noteWatch noteChange
    dsimp only
    split <;> split <;> rfl
  scope := congrArg (·.resetScope) ((same_noteEdit e k i d).link (by decide))

theorem prepared_blockTaken (n : Nat) (rest : List Nat) (r : LineRecord) : Prepared s (blockTaken s n rest r) where
  alike := by rw [blockTaken_script]; exact Kin.rfl.alike
  engine := by unfold blockTaken; dsimp only; split <;> rfl
  reports := by unfold blockTaken; dsimp only; split <;> rfl
  cause := by unfold blockTaken; dsimp only; split <;> rfl
  scope := by rw [blockTaken_link]; split <;> simp

theorem Prepared.trans (h : Prepared s w) (h' : Prepared w t) : Prepared s t where
  alike := h.alike.trans h'.alike
  engine := h'.engine.trans h.engine
  reports := h'.reports.trans h.reports
  cause := h'.cause.trans h.cause
  scope := h'.scope.trans h.scope

theorem prepared_offerFault (r : FaultRecord) : Prepared s (offerFault r s) where
  alike := (kin_offerFault r s).alike
  engine := (same_offerFault r).engine (by decide)
  reports := by rw [(same_offerFault r).mail (by decide)]
  cause := by unfold offerFault; split <;> rfl
  scope := congrArg (·.resetScope) ((same_offerFault r).link (by decide))

/-- An edit is refused, or completed. -/
theorem editChecks_live (h : Settled s) {e : EditKind} {k : Slot} {i : Nat} {f : State → Answer}
    (hf : TextInv (f s).state → LiveInv (f s).state) (hk : TextInv (editChecks e k i s f).state) :
    LiveInv (editChecks e k i s f).state := by
  unfold editChecks at hk ⊢
  dsimp only at hk ⊢
  split
  · exact h.live
  · exact h.live
  next hr =>
  rw [hr] at hk
  dsimp only at hk
  split
  · next hc => rw [if_pos hc] at hk; exact hf hk
  · exact h.quiet (prepared_offerFault _)

/-- The lines of a story replaced, in a script that reads as before. -/
theorem Alike.touches_withLines {x y : ScriptTable} {k : Slot} {ls : List Nat} (h : Alike x y) (hd : x.Distinct)
    (hd' : (y.withLines k ls).Distinct) : Touches k y (y.withLines k ls) :=
  wrote_withStory.touches (h.distinct hd) hd'

theorem withLines_lines (x : ScriptTable) (k : Slot) (ls : List Nat) : (x.withLines k ls).stories[k].lines = ls := by
  unfold ScriptTable.withLines
  rw [withStory_self]

theorem mem_insertLineAt {ls : List Nat} {m : Nat} (hm : m ∈ ls) (i n : Nat) : m ∈ insertLineAt ls i n := by
  rw [← List.take_append_drop i ls, List.mem_append] at hm
  rw [insertLineAt, List.mem_append, List.mem_cons]
  exact hm.imp_right .inr

theorem insertLine_live (h : Settled s) : LiveInv (insertLine b s).state := by
  have hk := insertLine_keeps (b := b) h.text
  unfold insertLine withSlot at hk ⊢
  split
  case isFalse => exact h.live
  next hlt =>
  rw [dif_pos hlt] at hk
  dsimp only at hk ⊢
  split
  · exact h.live
  next r hr =>
  simp only [hr] at hk
  split
  · exact h.live
  next hc =>
  rw [if_neg hc] at hk
  refine editChecks_live h (fun hk => ?_) hk
  unfold completeInsert at hk ⊢
  split
  · exact h.live
  next n u hu =>
  simp only [hu] at hk
  obtain ⟨rest, -, rfl⟩ := takeBlock_inv s hu
  have hw := (prepared_blockTaken (s := s) n rest r).trans (prepared_noteEdit .insert ⟨u8 b 0, hlt⟩ (u16 b 1) 1)
  have ht := hw.alike.touches_withLines h.text.distinct hk.distinct
  refine h.change hw hk.distinct ht (ht.loose (hw.alike.places h.place) fun _ m hm => ?_)
  rw [hw.alike.lines] at hm
  rw [withLines_lines, blockTaken_script]
  exact mem_insertLineAt hm _ _

theorem replaceLine_live (h : Settled s) : LiveInv (replaceLine b s).state := by
  unfold replaceLine withSlot
  split
  case isFalse => exact h.live
  dsimp only
  split
  · exact h.live
  split
  · exact h.live
  unfold editChecks
  dsimp only
  split
  · exact h.live
  · exact h.live
  split
  · have hw {n : Nat} {r : LineRecord} : Prepared s (rewriteBlock n r s) := ⟨Kin.rfl.alike, rfl, rfl, rfl, rfl⟩
    have hr {u : State} {k : Slot} {n : Nat} : Prepared u (sendRewritten k n u) := ⟨Kin.rfl.alike, rfl, rfl, rfl, rfl⟩
    exact h.quiet ((hw.trans (prepared_noteEdit _ _ _ _)).trans hr)
  · exact h.quiet (prepared_offerFault _)

/-- A line lies in a run that is deleted, or is left. -/
theorem mem_run_or_rest {ls : List Nat} {m : Nat} (hm : m ∈ ls) (i n : Nat) :
    m ∈ (ls.drop i).take n ∨ m ∈ ls.take i ++ ls.drop (i + n) := by
  rw [← List.take_append_drop i ls, List.mem_append] at hm
  rw [List.mem_append, ← List.drop_drop]
  rcases hm with hm | hm
  · exact .inr (.inl hm)
  · rw [← List.take_append_drop n (ls.drop i), List.mem_append] at hm
    exact hm.imp_right .inr

theorem deleteLines_live (h : Settled s) : LiveInv (deleteLines b s).state := by
  have hk := deleteLines_keeps (b := b) h.text
  unfold deleteLines withSlot at hk ⊢
  split
  case isFalse => exact h.live
  next hlt =>
  rw [dif_pos hlt] at hk
  dsimp only at hk ⊢
  split
  · exact h.live
  next hc =>
  rw [if_neg hc] at hk
  refine editChecks_live h (fun hk => ?_) hk
  clear hc
  generalize (⟨u8 b 0, hlt⟩ : Slot) = k at hk ⊢
  generalize u16 b 1 = i at hk ⊢
  generalize u8 b 3 = n at hk ⊢
  unfold completeDelete at hk ⊢
  dsimp only [done_state] at hk ⊢
  have hrun : ∀ m ∈ (s.script.stories[k].lines.drop i).take n, m ∈ s.script.stories[k].lines := fun m hm =>
    List.mem_of_mem_drop (List.mem_of_mem_take hm)
  have hrest : ∀ m ∈ s.script.stories[k].lines, m ∉ (s.script.stories[k].lines.drop i).take n →
      m ∈ s.script.stories[k].lines.take i ++ s.script.stories[k].lines.drop (i + n) := fun m hm =>
    (mem_run_or_rest hm i n).resolve_left
  generalize (s.script.stories[k].lines.drop i).take n = run at hk hrun hrest ⊢
  have hw := (prepared_returnRun (s := s) run).trans (prepared_noteEdit .delete k i (-(n : Int)))
  generalize noteEdit .delete k i (-(n : Int)) (returnRun run s) = v at hk hw ⊢
  have ht := hw.alike.touches_withLines h.text.distinct hk.distinct
  refine h.change hw hk.distinct ht ?_
  refine ht.loose_delete (hw.alike.places h.place) (hw.alike.distinct h.text.distinct) hk.distinct (fun m hm => ?_)
    fun m hm hr => ?_
  · rw [hw.alike.lines]
    exact hrun m hm
  · rw [hw.alike.lines] at hm
    rw [withLines_lines]
    exact hrest m hm hr

end settled
end Sys2Proof.Machine

namespace Sys2Proof.Machine

/-! ### Travel (R72 to R76)

An advance and a jog end alike: the passage check answers, the position is set, and the scroll halts where the travel has
met a limit or its target, or the check a PAUSE. -/

/-- A travel as the passage check has answered it: paused at a block, it ends at the start of that line with MARKER. -/
def Travel.answered (x : Travel) (answer : Option Nat) : Travel :=
  match answer with
  | some b => { stop := { block := b, sub := 0 }, cause := some .marker }
  | none => x

/-- The end of a travel: the position is set, and the scroll halts where there is a cause. -/
def arrive (x : Travel) (s : State) : State :=
  match x.cause with
  | some c => enterHalted c (setLive (some x.stop) s)
  | none => setLive (some x.stop) s

/-- The mode of the passage check of an advance (R76). -/
def Engine.checkMode (e : Engine) : CheckMode := if e.motion = .gliding then .silent else .fire

section travel
variable {s : State} {p : Pos} {r : Reach}

/-- An advance: the velocity is written, the span checked, and the travel ends as the check answers. -/
theorem advanceBy_eq (v : Int) (x : Travel) (forward : Bool) (p : Pos) (s : State) : advanceBy v x forward p s =
    (let c := passageCheck p x.stop forward s.engine.checkMode (s.withEngine { s.engine with velocity := v })
     arrive (x.answered c.2) c.1) := by
  unfold advanceBy travelSpan Engine.checkMode
  dsimp only
  generalize passageCheck p x.stop forward _ _ = c
  cases c.2 <;> rfl

/-- A jog travels from a scroll that has been halted, but for a RUNNING one (R87). -/
theorem jog_eq {d : Int} (hp : s.engine.live = some p) (hr : s.script.reach p.block = some r) (hd : d ≠ 0) :
    jog d s =
      (let c := passageCheck p (r.travel p d).stop (0 < d) .fire (jogHalt (cueReady s))
       designate (arrive (Travel.answered { stop := (r.travel p d).stop, cause := none } c.2) c.1)) := by
  unfold jog travelSpan
  simp only [hp, hr, if_neg hd]
  generalize passageCheck p (r.travel p d).stop _ _ _ = c
  cases c.2 <;> rfl

theorem arrive_engine (x : Travel) : (arrive x s).engine =
    match x.cause with
    | some c => if s.engine.motion = .halted then { s.engine with live := some x.stop }
        else { s.engine with live := some x.stop }.halt c s.clock.counter
    | none => { s.engine with live := some x.stop } := by
  unfold arrive
  cases x.cause with
  | some c => exact enterHalted_engine c
  | none => rfl

theorem arrive_live (x : Travel) : (arrive x s).engine.live = some x.stop := by
  rw [arrive_engine]
  cases x.cause with
  | some c => dsimp only; split <;> rfl
  | none => rfl

theorem arrive_liveSlot (x : Travel) : (arrive x s).engine.liveSlot = s.engine.liveSlot := by
  rw [arrive_engine]
  cases x.cause with
  | some c => dsimp only; split <;> rfl
  | none => rfl

/-- The end of a travel changes the engine and the notices. -/
theorem same_arrive (x : Travel) : Same [.engine, .notices] s (arrive x s) := by
  unfold arrive
  split
  · exact .after (same_enterHalted _) (by simp) ((same_withEngine _).mono (by simp))
  · exact (same_withEngine _).mono (by simp)

/-! What the passage check answers (R141 to R143) -/

theorem passLines_answer (mode : CheckMode) :
    ∀ (bs : List Nat) (s : State) {b : Nat}, (passLines mode bs s).2 = some b → b ∈ bs
  | [], _, _, h => by cases h
  | c :: bs, s, b, h => by
    have rest {u : State} (h : (passLines mode bs u).2 = some b) : b ∈ c :: bs :=
      List.mem_cons_of_mem _ (passLines_answer mode bs u h)
    unfold passLines at h
    split at h
    · exact rest h
    · dsimp only at h
      split at h
      · exact rest h
      · split at h
        · cases h; exact List.mem_cons_self
        · exact rest h

/-- A check that starts in reach pauses at a line ahead. -/
theorem passageCheck_answer {stop : Pos} {forward : Bool} {mode : CheckMode} {b : Nat}
    (hr : s.script.reach p.block = some r) (h : (passageCheck p stop forward mode s).2 = some b) : b ∈ r.fore := by
  have hs : (cueReady s).script = s.script := cueAside_cueReady.script
  unfold passageCheck at h
  dsimp only at h
  rw [hs] at h
  split at h
  · cases h
  split at h
  · have hb := passLines_answer _ _ _ h
    unfold spanLines at hb
    rw [hr] at hb
    dsimp only at hb
    split at hb
    · exact List.mem_of_mem_take hb
    · cases hb
  · cases h

/-! Places within a reach (R65, R73, R74) -/

theorem Reach.at_mem (r : Reach) (b : Nat) (x : Int) : (r.at b x).block ∈ b :: (r.fore ++ r.back) := by
  have hd {ls : List Nat} {i : Nat} (hs : ∀ m ∈ ls, m ∈ b :: (r.fore ++ r.back)) :
      ls.getD i b ∈ b :: (r.fore ++ r.back) := by
    rcases lt_or_ge i ls.length with hi | hi
    · rw [List.getD_eq_getElem _ _ hi]; exact hs _ (List.getElem_mem hi)
    · rw [List.getD_eq_default _ _ hi]; exact List.mem_cons_self
  unfold Reach.at
  split
  · refine hd fun m hm => ?_
    rcases List.mem_cons.1 hm with rfl | hm
    · exact List.mem_cons_self
    · exact List.mem_cons_of_mem _ (List.mem_append_left _ hm)
  · exact hd fun m hm => List.mem_cons_of_mem _ (List.mem_append_right _ hm)

theorem Reach.at_sub (r : Reach) (b : Nat) (x : Int) : (r.at b x).sub ≤ 255 := by
  unfold Reach.at
  split
  · show x.toNat % 256 ≤ 255
    omega
  · show 256 * (((-x).toNat + 255) / 256) - (-x).toNat ≤ 255
    omega

theorem Reach.travel_stop (r : Reach) (p : Pos) (v : Int) : ∃ x, (r.travel p v).stop = r.at p.block x := by
  unfold Reach.travel
  dsimp only
  split
  · exact ⟨r.ahead, rfl⟩
  · split
    · exact ⟨r.behind, rfl⟩
    · exact ⟨p.sub + v, rfl⟩

theorem Reach.findIdx_mem {ls : List Nat} {b i : Nat} (h : ls.findIdx? (· = b) = some i) : b ∈ ls := by
  obtain ⟨hi, hb, -⟩ := List.findIdx?_eq_some_iff_getElem.1 h
  exact of_decide_eq_true hb ▸ List.getElem_mem hi

/-- A line at a distance is within reach. -/
theorem Reach.offset_mem {b c : Nat} {x : Int} (h : r.offset b c = some x) : c ∈ b :: (r.fore ++ r.back) := by
  unfold Reach.offset at h
  split at h
  · next e => exact e ▸ List.mem_cons_self
  split at h
  · next i hi => exact List.mem_cons_of_mem _ (List.mem_append_left _ (Reach.findIdx_mem hi))
  · cases hi : r.back.findIdx? (· = c) with
    | none => rw [hi] at h; cases h
    | some i => exact List.mem_cons_of_mem _ (List.mem_append_right _ (Reach.findIdx_mem hi))

/-! Velocities (R69, R72) -/

theorem toward_natAbs_le {v t : Int} {m : Nat} (hv : v.natAbs ≤ m) (ht : t.natAbs ≤ m) (a : Nat) :
    (toward v t a).natAbs ≤ m := by
  unfold toward
  split <;> omega

theorem cutTo_natAbs_le (m : Nat) (v : Int) : (cutTo m v).natAbs ≤ m := by
  unfold cutTo
  omega

theorem goalSpeed_le {n : Nat} (hn : n ≤ 1024) (g : Goal) (d : Nat) : goalSpeed g n d ≤ 1024 := by
  unfold goalSpeed
  split
  · omega
  · split <;> omega

/-! What an advance can do -/

/-- An advance that travels: from the position, in reach, at a velocity within its limits, to a place in reach; a target
keeps its kind. -/
structure Advances (s : State) (p : Pos) (r : Reach) (v : Int) (goal : Option Goal) (x : Travel) : Prop where
  live : s.engine.live = some p
  reach : s.script.reach p.block = some r
  moving : s.engine.motion ≠ .halted
  goal : goal.map (·.glide) = s.engine.goal.map (·.glide)
  stop : x.stop.block ∈ p.block :: (r.fore ++ r.back)
  subline : x.stop.sub ≤ 255
  velocity : EngineInv s.engine → v.natAbs ≤ 1024
  maxSpeed : EngineInv s.engine → s.engine.motion = .running ∨ s.engine.motion = .stopping →
    v.natAbs ≤ s.engine.settings.maxSpeed

/-- The travel of a velocity in RUNNING and STOPPING. -/
theorem Advances.ramped (hp : s.engine.live = some p) (hr : s.script.reach p.block = some r)
    (hm : s.engine.motion = .running ∨ s.engine.motion = .stopping) {aim : Int}
    (ha : EngineInv s.engine → aim.natAbs ≤ s.engine.settings.maxSpeed) :
    Advances s p r (toward s.engine.velocity aim s.engine.settings.accel) s.engine.goal
      (r.travel p (toward s.engine.velocity aim s.engine.settings.accel)) := by
  obtain ⟨x, hx⟩ := r.travel_stop p (toward s.engine.velocity aim s.engine.settings.accel)
  have hv (h : EngineInv s.engine) := toward_natAbs_le (h.maxSpeed hm) (ha h) s.engine.settings.accel
  exact {
    live := hp
    reach := hr
    moving := by rcases hm with h | h <;> rw [h] <;> nofun
    goal := rfl
    stop := hx ▸ r.at_mem _ _
    subline := hx ▸ r.at_sub _ _
    velocity := fun h => (hv h).trans h.settings.2.1
    maxSpeed := fun h _ => hv h }

/-- The travel toward a target. -/
theorem advanceToGoal_cases (hp : s.engine.live = some p) (hr : s.script.reach p.block = some r)
    (hm : s.engine.motion = .stepping ∨ s.engine.motion = .gliding) {g : Goal} (hg : s.engine.goal = some g) :
    ∃ v goal x forward, Advances s p r v goal x ∧
      advanceToGoal g p r s = advanceBy v x forward p (s.withEngine { s.engine with goal := goal }) := by
  have hgoal : (some { g with framesLeft := g.framesLeft - 1 } : Option Goal).map (·.glide) =
      s.engine.goal.map (·.glide) := by rw [hg]; rfl
  have mk {v : Int} {x : Travel} (hs : x.stop.block ∈ p.block :: (r.fore ++ r.back)) (hsub : x.stop.sub ≤ 255)
      (hv : EngineInv s.engine → v.natAbs ≤ 1024) :
      Advances s p r v (some { g with framesLeft := g.framesLeft - 1 }) x :=
    { live := hp, reach := hr, moving := by rcases hm with h | h <;> rw [h] <;> nofun
      goal := hgoal, stop := hs, subline := hsub, velocity := hv
      maxSpeed := fun _ h => by rcases hm with e | e <;> simp [e] at h }
  unfold advanceToGoal
  cases hx : r.offset p.block g.block with
  | some x =>
    dsimp only
    have hv (f : Bool) (d : Nat) (h : EngineInv s.engine) :
        (if f then (goalSpeed g s.engine.settings.stepSpeed d : Int)
          else -(goalSpeed g s.engine.settings.stepSpeed d : Int)).natAbs ≤ 1024 := by
      have := goalSpeed_le h.settings.2.2.2.2.2 g d
      cases f <;> simp only [if_true, if_false, Bool.false_eq_true] <;> omega
    by_cases hd : (x - p.sub).natAbs ≤ goalSpeed g s.engine.settings.stepSpeed (x - p.sub).natAbs
    · exact ⟨_, _, _, _, mk (r.offset_mem hx) (Nat.zero_le _) (hv _ _), if_pos hd⟩
    · exact ⟨_, _, _, _, mk (r.at_mem _ _) (r.at_sub _ _) (hv _ _), if_neg hd⟩
  | none =>
    dsimp only
    have hv (f : Bool) (h : EngineInv s.engine) :
        (if f then (if g.glide then (1024 : Int) else s.engine.settings.stepSpeed)
          else -(if g.glide then (1024 : Int) else s.engine.settings.stepSpeed)).natAbs ≤ 1024 := by
      have := h.settings.2.2.2.2.2
      split <;> split <;> omega
    have hs (v : Int) : (r.travel p v).stop.block ∈ p.block :: (r.fore ++ r.back) ∧ (r.travel p v).stop.sub ≤ 255 := by
      obtain ⟨x, hx⟩ := r.travel_stop p v
      exact hx ▸ ⟨r.at_mem _ _, r.at_sub _ _⟩
    exact ⟨_, _, _, _, mk (hs _).1 (hs _).2 (hv _), rfl⟩

/-- What an advance can do: nothing; come to velocity 0 in RUNNING or to rest in STOPPING; travel. -/
theorem advance_cases (s : State) : advance s = s ∨
    (s.engine.motion = .running ∧ advance s = s.withEngine { s.engine with velocity := 0 }) ∨
    (s.engine.motion = .stopping ∧ advance s = enterHalted .request s) ∨
    ∃ p r v goal x forward, Advances s p r v goal x ∧
      advance s = advanceBy v x forward p (s.withEngine { s.engine with goal := goal }) := by
  cases hp : s.engine.live with
  | none => exact .inl (by simp only [advance, hp])
  | some p =>
    cases hr : s.script.reach p.block with
    | none => exact .inl (by simp only [advance, hp, hr])
    | some r =>
      have toGoal (hm : s.engine.motion = .stepping ∨ s.engine.motion = .gliding) :
          advance s = s ∨ ∃ p r v goal x forward, Advances s p r v goal x ∧
            advance s = advanceBy v x forward p (s.withEngine { s.engine with goal := goal }) := by
        cases hg : s.engine.goal with
        | none => exact .inl (by rcases hm with hm | hm <;> simp only [advance, hp, hr, hm, hg])
        | some g =>
          obtain ⟨v, goal, x, f, ha, hx⟩ := advanceToGoal_cases hp hr hm hg
          have he : advance s = advanceToGoal g p r s := by
            rcases hm with hm | hm <;> simp only [advance, hp, hr, hm, hg]
          exact .inr ⟨p, r, v, goal, x, f, ha, he.trans hx⟩
      have ramp (hm : s.engine.motion = .running ∨ s.engine.motion = .stopping) {aim : Int} {u : State}
          (ha : EngineInv s.engine → aim.natAbs ≤ s.engine.settings.maxSpeed)
          (he : advance s = (let v := toward s.engine.velocity aim s.engine.settings.accel
            if v = 0 then u else advanceBy v (r.travel p v) (0 < v) p s)) :
          advance s = u ∨ ∃ p r v goal x forward, Advances s p r v goal x ∧
            advance s = advanceBy v x forward p (s.withEngine { s.engine with goal := goal }) := by
        by_cases hv : toward s.engine.velocity aim s.engine.settings.accel = 0
        · exact .inl (he.trans (if_pos hv))
        · exact .inr ⟨p, r, _, _, _, _, .ramped hp hr hm ha, he.trans (if_neg hv)⟩
      cases hm : s.engine.motion with
      | halted => exact .inl (by simp only [advance, hp, hr, hm])
      | running =>
        exact .inr ((ramp (.inl hm) (fun h => h.target) (by simp only [advance, hp, hr, hm])).imp
          (⟨rfl, ·⟩) .inr)
      | stopping =>
        exact .inr (.inr ((ramp (.inr hm) (aim := 0) (fun _ => Nat.zero_le _) (by simp only [advance, hp, hr, hm])).imp_left
          (⟨rfl, ·⟩)))
      | stepping => exact (toGoal (.inl hm)).imp_right fun h => .inr (.inr h)
      | gliding => exact (toGoal (.inr hm)).imp_right fun h => .inr (.inr h)

end travel
end Sys2Proof.Machine

namespace Sys2Proof.Machine

/-! ### The facts of the Scroll Engine, operation by operation (R65, R69, R70)

`{ h with … }` says which facts an operation must establish anew: the others speak of what it leaves alone. -/

section engineInv
variable {e : Engine}

/-- A target stands in STEPPING and GLIDING only. -/
theorem EngineInv.goal_none (h : EngineInv e) (hs : e.motion ≠ .stepping) (hg : e.motion ≠ .gliding) : e.goal = none := by
  cases hx : e.goal with
  | none => rfl
  | some g =>
    cases hb : g.glide
    · exact absurd (h.stepping.2 (by rw [hx, ← hb]; rfl)) hs
    · exact absurd (h.gliding.2 (by rw [hx, ← hb]; rfl)) hg

/-- The velocity cut to the max speed. -/
theorem EngineInv.cut_le (h : EngineInv e) (v : Int) : (cutTo e.settings.maxSpeed v).natAbs ≤ 1024 :=
  (cutTo_natAbs_le _ _).trans h.settings.2.1

theorem EngineInv.halt (h : EngineInv e) (c : HaltCause) (frame : Half) : EngineInv (e.halt c frame) :=
  { h with
    halted := fun _ => ⟨rfl, rfl⟩
    stepping := ⟨nofun, nofun⟩
    gliding := ⟨nofun, nofun⟩
    void := fun _ => rfl
    velocity := Nat.zero_le _
    maxSpeed := fun _ => Nat.zero_le _ }

theorem EngineInv.note (h : EngineInv e) (c : HaltCause) (frame : Half) : EngineInv (e.note c frame) := { h with }

/-- The position set to a place; which slot it designates is no matter. -/
theorem EngineInv.move (h : EngineInv e) {p : Pos} (hp : p.sub ≤ 255) (k : Option Slot) :
    EngineInv { e with live := some p, liveSlot := k } :=
  { h with
    void := nofun
    subline := fun _ hq => Option.some.inj hq ▸ hp }

/-- In HALTED the position can be set to VOID too. -/
theorem EngineInv.moveHalted (h : EngineInv e) (hm : e.motion = .halted) {p : Option Pos}
    (hp : ∀ q, p = some q → q.sub ≤ 255) (k : Option Slot) : EngineInv { e with live := p, liveSlot := k } :=
  { h with
    void := fun _ => hm
    subline := hp }

theorem EngineInv.slot (h : EngineInv e) (k : Option Slot) : EngineInv { e with liveSlot := k } := { h with }

theorem EngineInv.withPreview (h : EngineInv e) (b : Option Nat) : EngineInv { e with preview := b } := { h with }

/-- RUNNING at a position, without a target line. -/
theorem EngineInv.running (h : EngineInv e) (hg : e.goal = none) (hp : e.live.isSome = true) {v : Int}
    (hv : v.natAbs ≤ e.settings.maxSpeed) : EngineInv { e with motion := .running, velocity := v } :=
  { h with
    halted := nofun
    stepping := ⟨nofun, fun k => by rw [hg] at k; cases k⟩
    gliding := ⟨nofun, fun k => by rw [hg] at k; cases k⟩
    void := fun k => by rw [k] at hp; cases hp
    velocity := hv.trans h.settings.2.1
    maxSpeed := fun _ => hv }

theorem EngineInv.run (h : EngineInv e) (hm : e.motion = .halted) (hp : e.live.isSome = true) : EngineInv e.run :=
  h.running (h.halted hm).2 hp (Nat.zero_le _)

/-- Out of STOPPING, back to RUNNING (R78, R86). -/
theorem EngineInv.rerun (h : EngineInv e) (hm : e.motion = .stopping) : EngineInv { e with motion := .running } := by
  refine h.running (v := e.velocity) (h.goal_none (by simp [hm]) (by simp [hm])) ?_ (h.maxSpeed (.inr hm))
  rw [Option.isSome_iff_ne_none]
  intro hn
  rw [h.void hn] at hm
  cases hm

theorem EngineInv.stop (h : EngineInv e) : EngineInv e.stop := by
  have hstop (hm : e.motion ≠ .halted) :
      EngineInv { e with motion := .stopping, goal := none, velocity := cutTo e.settings.maxSpeed e.velocity } :=
    { h with
      halted := nofun
      stepping := ⟨nofun, nofun⟩
      gliding := ⟨nofun, nofun⟩
      void := fun k => absurd (h.void k) hm
      velocity := h.cut_le _
      maxSpeed := fun _ => cutTo_natAbs_le _ _ }
  unfold Engine.stop
  split
  · exact h
  · exact h
  all_goals next hm => exact hstop (by rw [hm]; nofun)

theorem EngineInv.setTarget (h : EngineInv e) {v : Int} (hv : v.natAbs ≤ e.settings.maxSpeed) :
    EngineInv (e.setTarget v) := by
  have ht : EngineInv { e with target := v } := { h with target := hv }
  unfold Engine.setTarget
  dsimp only
  split
  · next hm =>
    exact { ht with
      halted := nofun
      stepping := ⟨nofun, nofun⟩
      gliding := ⟨nofun, nofun⟩
      void := fun k => absurd (h.void k) (by rw [hm]; nofun)
      velocity := Nat.zero_le _
      maxSpeed := fun _ => Nat.zero_le _ }
  · exact ht

/-- STEPPING or GLIDING toward a target line, from a position. -/
theorem EngineInv.aim (h : EngineInv e) (hp : e.live.isSome = true) (g : Goal) :
    EngineInv { e with motion := if g.glide then .gliding else .stepping, goal := some g } := by
  obtain ⟨glide, b, n⟩ := g
  have hv : e.live ≠ none := Option.isSome_iff_ne_none.1 hp
  cases glide
  all_goals exact { h with
      halted := nofun
      stepping := by simp
      gliding := by simp
      void := fun k => absurd k hv
      maxSpeed := by simp }

theorem EngineInv.setMotion (h : EngineInv e) {x : MotionSettings} (hx : 1 ≤ x.maxSpeed ∧ x.maxSpeed ≤ 1024 ∧
    1 ≤ x.accel ∧ x.accel ≤ 256 ∧ 16 ≤ x.stepSpeed ∧ x.stepSpeed ≤ 1024) : EngineInv (e.setMotion x) :=
  have hc := cutTo_natAbs_le x.maxSpeed e.velocity
  { h with
    halted := fun (hm : e.motion = .halted) => ⟨(if_neg (by rw [hm]; nofun)).trans (h.halted hm).1, (h.halted hm).2⟩
    velocity := by
      show (if _ then _ else _ : Int).natAbs ≤ _
      split
      · exact hc.trans hx.2.1
      · exact h.velocity
    maxSpeed := fun (hm : e.motion = .running ∨ e.motion = .stopping) => by
      show (if _ then _ else _ : Int).natAbs ≤ _
      rw [if_pos hm]
      exact hc
    target := cutTo_natAbs_le _ _
    settings := hx }

/-- A velocity and a target of the same kind, in a state of travel. -/
theorem EngineInv.withVelocity (h : EngineInv e) (hm : e.motion ≠ .halted) {v : Int} {g : Option Goal}
    (hg : g.map (·.glide) = e.goal.map (·.glide)) (hv : v.natAbs ≤ 1024)
    (hx : e.motion = .running ∨ e.motion = .stopping → v.natAbs ≤ e.settings.maxSpeed) :
    EngineInv { e with velocity := v, goal := g } :=
  { h with
    halted := fun k => absurd k hm
    stepping := h.stepping.trans (by rw [hg])
    gliding := h.gliding.trans (by rw [hg])
    velocity := hv
    maxSpeed := hx }

theorem EngineInv.scopeReset (h : EngineInv e) (x : Scope) (frame : Half) : EngineInv (e.scopeReset x frame) where
  halted _ := ⟨rfl, rfl⟩
  stepping := ⟨nofun, nofun⟩
  gliding := ⟨nofun, nofun⟩
  void _ := rfl
  subline p hp := by
    change (if _ then _ else _) = some p at hp
    split at hp
    · cases hp
    · exact h.subline p hp
  velocity := Nat.zero_le _
  maxSpeed _ := Nat.zero_le _
  target := Nat.zero_le _
  settings := by
    unfold Engine.scopeReset
    dsimp only
    split
    · exact reset_engineInv.settings
    · exact h.settings

end engineInv

/-! The operations on the state -/

section states
variable {s : State}

theorem enterHalted_motion (c : HaltCause) : (enterHalted c s).engine.motion = .halted := by
  rw [enterHalted_engine]
  split
  · assumption
  · rfl

theorem enterHalted_engineInv (c : HaltCause) (h : EngineInv s.engine) : EngineInv (enterHalted c s).engine := by
  rw [enterHalted_engine]
  split
  · exact h
  · exact h.halt _ _

theorem designate_engineInv (h : EngineInv s.engine) : EngineInv (designate s).engine := by
  rw [designate_engine]
  exact h.slot _

theorem jump_engineInv {p : Pos} (hp : p.sub ≤ 255) (h : EngineInv s.engine) : EngineInv (jump (some p) s).engine := by
  rw [jump_engine]
  exact h.move hp _

/-- A place at the start of a line. -/
theorem firstLine_sub {t : ScriptTable} {k : Slot} {p : Pos} (h : t.firstLine k = some p) : p.sub = 0 := by
  obtain ⟨b, -, rfl⟩ := Option.map_eq_some_iff.1 h
  rfl

theorem relocated_sub {t : ScriptTable} {i : Nat} {p : Pos} (h : relocated t i = some p) : p.sub = 0 := by
  unfold relocated at h
  split at h
  · exact firstLine_sub h
  · obtain ⟨k, -, hk⟩ := Option.bind_eq_some_iff.1 h
    obtain ⟨b, -, rfl⟩ := Option.map_eq_some_iff.1 hk
    rfl

/-! Reports -/

theorem endGoalIf_engineInv (gone : Nat → Bool) (h : EngineInv s.engine) : EngineInv (endGoalIf gone s).engine := by
  unfold endGoalIf
  split
  · split
    · exact enterHalted_engineInv _ h
    · exact h
  · exact h

theorem liveAfterDelete_engineInv (k : Slot) (i : Nat) (run : List Nat) (h : EngineInv s.engine) :
    EngineInv (liveAfterDelete k i run s).engine := by
  unfold liveAfterDelete
  split
  · split
    · split
      · exact jump_engineInv (Nat.zero_le _) h
      · exact h
    · exact h
  · exact h

theorem takeDelete_engineInv (k : Slot) (i : Nat) (run : List Nat) (h : EngineInv s.engine) :
    EngineInv (takeDelete k i run s).engine := by
  refine endGoalIf_engineInv _ (liveAfterDelete_engineInv _ _ _ ?_)
  unfold previewAfterDelete
  split
  · split
    · exact h.withPreview _
    · exact h
  · exact h

theorem takeIneligible_engineInv (k : Slot) (i : Nat) (h : EngineInv s.engine) : EngineInv (takeIneligible k i s).engine := by
  refine endGoalIf_engineInv _ ?_
  split
  · rw [jump_engine]
    exact (enterHalted_engineInv _ h).moveHalted (enterHalted_motion _)
      (fun q hq => (relocated_sub hq).le.trans (Nat.zero_le _)) _
  · exact h

theorem takeEligible_engineInv (h : EngineInv s.engine) : EngineInv (takeEligible s).engine := by
  unfold takeEligible
  split
  · exact h
  · split
    · next p hp =>
      obtain ⟨k, -, hk⟩ := Option.bind_eq_some_iff.1 hp
      exact jump_engineInv ((firstLine_sub hk).le.trans (Nat.zero_le _)) h
    · exact h

theorem takeReport_engineInv (r : ScriptReport) (h : EngineInv s.engine) : EngineInv (takeReport r s).engine := by
  cases r with
  | insert | orderChanged => exact h
  | delete k i run => exact takeDelete_engineInv k i run h
  | ineligible k i => exact takeIneligible_engineInv k i h
  | eligible k => exact takeEligible_engineInv h

theorem takeReports_engineInv (h : EngineInv s.engine) : EngineInv (takeReports s).engine := by
  have all : ∀ (rs : List (Msg ScriptReport)) (u : State),
      EngineInv u.engine → EngineInv (rs.foldl takeWaiting u).engine := by
    intro rs
    induction rs with
    | nil => exact fun _ hu => hu
    | cons m rs ih => exact fun u hu => ih _ (takeReport_engineInv (s := u.withCause m.req) m.body hu)
  exact all s.mail.engineReports (s.withReports []) h

theorem engineReady_engineInv (h : EngineInv s.engine) : EngineInv (engineReady s).engine := by
  rw [engineReady_engine]
  exact takeReports_engineInv h

/-! Travel -/

theorem Travel.answered_sub {x : Travel} (hx : x.stop.sub ≤ 255) (a : Option Nat) : (x.answered a).stop.sub ≤ 255 := by
  cases a
  · exact hx
  · exact Nat.zero_le _

theorem arrive_engineInv {x : Travel} (hx : x.stop.sub ≤ 255) (h : EngineInv s.engine) : EngineInv (arrive x s).engine := by
  have hm : EngineInv { s.engine with live := some x.stop } := h.move hx s.engine.liveSlot
  rw [arrive_engine]
  split
  · split
    · exact hm
    · exact hm.halt _ _
  · exact hm

theorem advanceBy_engineInv {v : Int} {x : Travel} {f : Bool} {p : Pos} (hx : x.stop.sub ≤ 255)
    (h : EngineInv { s.engine with velocity := v }) : EngineInv (advanceBy v x f p s).engine := by
  rw [advanceBy_eq]
  refine arrive_engineInv (Travel.answered_sub hx _) ?_
  rw [(cueAside_passageCheck _ _ _ _).engine]
  exact h

theorem advance_engineInv (h : EngineInv s.engine) : EngineInv (advance s).engine := by
  obtain e | ⟨hm, e⟩ | ⟨-, e⟩ | ⟨p, r, v, goal, x, f, ha, e⟩ := advance_cases s
  · rw [e]; exact h
  · rw [e]
    exact h.withVelocity (v := 0) (by rw [hm]; nofun) rfl (Nat.zero_le _) fun _ => Nat.zero_le _
  · rw [e]; exact enterHalted_engineInv _ h
  · rw [e]
    exact advanceBy_engineInv ha.subline (h.withVelocity ha.moving ha.goal (ha.velocity h) (ha.maxSpeed h))

theorem frameAdvance_engineInv (frame : Half) (h : EngineInv s.engine) : EngineInv (frameAdvance frame s).engine := by
  have ha : EngineInv (reportAir s).engine := by
    rw [same_reportAir.engine (by decide)]
    exact h
  exact designate_engineInv (advance_engineInv ha)

theorem jogHalt_engineInv (h : EngineInv s.engine) : EngineInv (jogHalt s).engine := by
  unfold jogHalt
  split
  · exact h
  · exact enterHalted_engineInv _ h

theorem jog_engineInv (d : Int) (h : EngineInv s.engine) : EngineInv (jog d s).engine := by
  cases hp : s.engine.live with
  | none => simpa only [jog, hp] using h
  | some p =>
    cases hr : s.script.reach p.block with
    | none => simpa only [jog, hp, hr] using jogHalt_engineInv h
    | some r =>
      by_cases hd : d = 0
      · simpa only [jog, hp, hr, hd, if_true] using jogHalt_engineInv h
      · rw [jog_eq hp hr hd]
        refine designate_engineInv (arrive_engineInv (Travel.answered_sub ?_ _) ?_)
        · obtain ⟨x, hx⟩ := r.travel_stop p d
          exact hx ▸ r.at_sub _ _
        · rw [(cueAside_passageCheck _ _ _ _).engine]
          refine jogHalt_engineInv ?_
          rw [cueAside_cueReady.engine]
          exact h

/-! Moves and requests -/

theorem beginStep_engineInv (count : Int) (h : EngineInv s.engine) : EngineInv (beginStep count s).engine := by
  unfold beginStep
  split
  · next b hb =>
    obtain ⟨p, hp, -⟩ := Option.bind_eq_some_iff.1 hb
    exact h.aim (by rw [hp]; rfl) { glide := false, block := b, framesLeft := 0 }
  · exact h

theorem startStop_engineInv (h : EngineInv s.engine) : EngineInv (startStop s).engine := by
  unfold startStop
  split
  · exact h
  · next hn =>
    have hp : s.engine.live.isSome = true := by simpa [Option.isSome_iff_ne_none] using hn
    split
    · next hm =>
      split
      · exact beginStep_engineInv _ h
      · exact h.run hm hp
    · exact h.stop
    · next hm => exact h.rerun hm
    · exact enterHalted_engineInv _ h
    · exact enterHalted_engineInv _ h

variable {b : List Byte}

theorem runScroll_engineInv (h : EngineInv s.engine) : EngineInv (runScroll b s).state.engine := by
  unfold runScroll
  split
  · next hm =>
    split
    · exact h
    · next hn => exact h.run hm (by simpa [Option.isSome_iff_ne_none] using hn)
  · exact h
  · next hm => exact h.rerun hm
  · exact h
  · exact h

theorem stepScroll_engineInv (h : EngineInv s.engine) : EngineInv (stepScroll b s).state.engine := by
  unfold stepScroll
  dsimp only
  split
  · exact h
  · split
    · exact h
    · exact beginStep_engineInv _ h

theorem goTo_engineInv {n frames : Nat} {p : Pos} (hp : s.engine.live = some p) (h : EngineInv s.engine) :
    EngineInv (goTo n frames p s).engine := by
  unfold goTo
  split
  · refine jump_engineInv (Nat.zero_le _) ?_
    split
    · exact h.note _ _
    · exact enterHalted_engineInv _ h
  · exact h.aim (by rw [hp]; rfl) { glide := true, block := n, framesLeft := frames }

theorem goToRequest_engineInv (h : EngineInv s.engine) : EngineInv (goToRequest b s).state.engine := by
  generalize ht : (goToRequest b s).state = t
  obtain rfl | ⟨k, -, ht⟩ := withSlot_inv ht
  · exact h
  dsimp only at ht
  split at ht
  · exact ht ▸ h
  split at ht
  · exact ht ▸ h
  split at ht
  · next p _ _ hp _ _ =>
    split at ht
    · split at ht
      · exact ht ▸ h
      · exact ht ▸ goTo_engineInv hp h
    · exact ht ▸ h
  · exact ht ▸ h

theorem setSpeed_engineInv (h : EngineInv s.engine) : EngineInv (setSpeed b s).state.engine := by
  unfold setSpeed
  dsimp only
  split
  · exact h
  · next hv =>
    split
    · exact h
    · exact h.setTarget (Nat.le_of_not_lt hv)

theorem setMotion_engineInv (h : EngineInv s.engine) : EngineInv (setMotion b s).state.engine := by
  unfold setMotion
  dsimp only
  split
  · split
    · next hx => exact h.setMotion hx
    · exact h
  · exact h

theorem setPreview_engineInv (h : EngineInv s.engine) : EngineInv (setPreview b s).state.engine := by
  unfold setPreview
  split
  · exact h.withPreview _
  · generalize ht : (withSlot _ s _).state = t
    obtain rfl | ⟨k, -, ht⟩ := withSlot_inv ht
    · exact h
    dsimp only at ht
    split at ht
    · exact ht ▸ h
    · split at ht
      · exact ht ▸ h
      · exact ht ▸ h
    · split at ht
      · exact ht ▸ h.withPreview _
      · exact ht ▸ h

/-- Set Story takes the reports of its change before it answers. -/
theorem setStory_engineInv (h : EngineInv s.engine) : EngineInv (setStory b s).state.engine := by
  generalize ht : (setStory b s).state = t
  obtain rfl | ⟨k, -, ht⟩ := withSlot_inv ht
  · exact h
  dsimp only at ht
  split at ht
  · exact ht ▸ h
  split at ht
  · exact ht ▸ h
  split at ht
  · exact ht ▸ h
  · exact ht ▸ h
  subst ht
  have hc (k : Slot) (u : State) (hu : EngineInv u.engine) : EngineInv (liveSlotCheck k u).engine := by
    unfold liveSlotCheck
    dsimp only
    split
    · rw [(same_designation k).engine (by decide)]
      exact takeReports_engineInv hu
    · exact takeReports_engineInv hu
  exact hc _ _ h

end states

end Sys2Proof.Machine

namespace Sys2Proof.Machine

/-! ### Every command keeps the facts of the Scroll Engine -/

/-- A property that goes by what every other block leaves alone. -/
def AsideOnly (P : State → Prop) : Prop := ∀ s t, Aside s t → P s → P t

section keeps
variable {P : State → Prop} {s : State}

/-- A message of a channel other than the reports, taken by an operation that keeps the property. -/
theorem AsideOnly.takeHead (hP : AsideOnly P) {α β : Type} {c : List (Msg α)} {want : α → Option β}
    {x : List (Msg α) → State → Mail} {f : β → State → State}
    (hf : ∀ i a u, want i = some a → P u → P (f a u)) (h : P s)
    (hx : ∀ r u, (x r u).engineReports = u.mail.engineReports := by exact fun _ _ => rfl) :
    P (takeHead c want (fun r u => u.withMail (x r u)) f s) := by
  unfold Machine.takeHead
  split
  · split
    · next ha => exact hP _ _ aside_event (hf _ _ _ ha (hP _ _ ((aside_withMail _ (hx _ _)).trans (aside_withCause _)) h))
    · exact h
  · exact h

/-- A request whose owner keeps the property where it is carried out. -/
theorem AsideOnly.request (hP : AsideOnly P) {meant : Request → Bool} {owner : List Byte → State → Answer}
    (ho : s.canTake = true → ∀ b, P (s.withCause true) → P (owner b (s.withCause true)).state) (h : P s) :
    P (runRequestIf meant owner s) := by
  obtain ha | ⟨r, -, -, hc, ha⟩ := runRequestIf_aside meant owner s
  · exact hP _ _ ha h
  · exact hP _ _ ha (ho hc r.body (hP _ _ (aside_withCause true) h))

theorem AsideOnly.holderInput (hP : AsideOnly P) {want : HolderInput → Option (State → State)}
    (hf : ∀ i f u, want i = some f → P u → P (f (engineReady u))) (h : P s) : P (takeInputIf want s) :=
  hP.takeHead hf h

theorem AsideOnly.aside {o : Out} (hP : AsideOnly P) (ho : Ends o (Aside s)) (h : P s) : Ends o P := by
  cases o with
  | next t => exact hP _ _ ho h
  | fault | refused => exact ho

/-- What every command keeps, every step keeps. -/
theorem kept_of_exec (hexec : ∀ c s, P s → Ends (exec c s) P) (hwait : ∀ s rest, P s → P { s with pending := rest })
    (htick : ∀ s, P s → P s.tick) : Kept P := by
  intro s t hi h
  unfold step at h
  split at h
  · next c rest _ => exact (hexec c _ (hwait s rest hi)).next h
  · split at h
    · next c _ => exact (hexec c s hi).next h
    · cases h
      exact htick s hi

end keeps

/-! Resets -/

section reset
variable {s : State} (x : Scope)

theorem resetLink_leaves {x : Scope} : (resetLink x s).engine = s.engine ∧ (resetLink x s).script = s.script ∧
    (resetLink x s).mail.engineReports = s.mail.engineReports := by
  unfold resetLink
  split
  · exact ⟨rfl, rfl, rfl⟩
  · have h : Aside (s.withLink { s.link with resetScope := none }) (transmitNext _) := aside_transmitNext
    exact ⟨h.engine, h.script, h.reports⟩

theorem takeReset_engine : (takeReset x s).engine = engineAfterReset x (finishCueWork s) :=
  resetLink_leaves.1.trans (congrArg State.engine (resetBlocks_eq x (finishCueWork s)))

theorem takeReset_script : (takeReset x s).script = if x.hitsScript then .reset else s.script := by
  have h : (takeReset x s).script = if x.hitsScript then .reset else (finishCueWork s).script :=
    resetLink_leaves.2.1.trans (congrArg State.script (resetBlocks_eq x (finishCueWork s)))
  rw [h, cueAside_finishCueWork.script]

theorem takeReset_reports : (takeReset x s).mail.engineReports = s.mail.engineReports := by
  have h : (takeReset x s).mail.engineReports = (finishCueWork s).mail.engineReports :=
    resetLink_leaves.2.2.trans (congrArg (·.mail.engineReports) (resetBlocks_eq x (finishCueWork s)))
  rw [h, cueAside_finishCueWork.reports]

theorem takeReset_engineInv (h : EngineInv s.engine) : EngineInv (takeReset x s).engine := by
  have hf : EngineInv (finishCueWork s).engine := cueAside_finishCueWork.engine.symm ▸ h
  rw [takeReset_engine]
  unfold engineAfterReset
  split
  · exact hf.scopeReset _ _
  · exact hf

end reset

section engineInv
variable {s : State}

theorem asideOnly_engineInv : AsideOnly (fun s => EngineInv s.engine) := fun s t h (hi : EngineInv s.engine) =>
  show EngineInv t.engine from h.engine.symm ▸ hi

theorem request_engineInv {meant : Request → Bool} {owner : List Byte → State → Answer}
    (ho : ∀ {b u}, EngineInv u.engine → EngineInv (owner b u).state.engine) (h : EngineInv s.engine) :
    EngineInv (runRequestIf meant owner s).engine :=
  asideOnly_engineInv.request (fun _ _ => ho) h

/-- A request of another block. -/
theorem request_engineInv_same {qs : List Part} {meant : Request → Bool} {owner : List Byte → State → Answer}
    (ho : ∀ {u} b, Same qs u (owner b u).state) (h : EngineInv s.engine) (he : .engine ∉ qs := by decide) :
    EngineInv (runRequestIf meant owner s).engine :=
  request_engineInv (fun {b u} hu => ((ho (u := u) b).engine he).symm ▸ hu) h

theorem takeReportIf_engineInv (want : ScriptReport → Bool) (h : EngineInv s.engine) :
    EngineInv (takeReportIf want s).engine := by
  unfold takeReportIf takeHead
  split
  · split
    · exact asideOnly_engineInv _ _ aside_event (takeReports_engineInv (takeReport_engineInv _ h))
    · exact h
  · exact h

/-- A message of the engine's to the Script Table. -/
theorem takeScriptMsg_engineInv {qs : List Part} {want : ScriptMsg → Option Slot} {f : Slot → State → State}
    (hf : ∀ {u} k, Same qs u (f k u)) (h : EngineInv s.engine) (he : .engine ∉ qs := by decide) :
    EngineInv (takeScriptMsg want f s).engine :=
  asideOnly_engineInv.takeHead (fun _ k u _ hu => ((hf (u := u) k).engine he).symm ▸ hu) h

/-- Every command keeps the facts of the Scroll Engine. -/
theorem exec_engineInv (c : Instr) (h : EngineInv s.engine) : Ends (exec c s) (fun t => EngineInv t.engine) := by
  by_cases hc : .engine ∉ touches c ∧ .script ∉ touches c ∧ c ≠ .reset
  · exact asideOnly_engineInv.aside (exec_aside c hc.1 hc.2.1 hc.2.2) h
  cases c with
  | powerOnReset a b => exact reset_engineInv
  | resetTakesEffect =>
    show EngineInv (State.engine _)
    split
    · split
      · exact asideOnly_engineInv _ _ aside_event (takeReset_engineInv _ h)
      · exact h
    · exact h
  | reset => exact request_engineInv_same same_resetRequest h
  | openStory => exact request_engineInv_same same_openStory h
  | appendLine => exact request_engineInv_same same_appendLine h
  | closeStoryCommit => exact request_engineInv_same same_closeCommit h
  | closeStoryAbandon => exact request_engineInv_same same_closeAbandon h
  | freeStory => exact request_engineInv_same same_freeStory h
  | setStory => exact request_engineInv setStory_engineInv h
  | placeEntry => exact request_engineInv_same same_placeEntry h
  | moveEntry => exact request_engineInv_same same_moveEntry h
  | removeEntry => exact request_engineInv_same same_removeEntry h
  | floatEntry => exact request_engineInv_same same_floatEntry h
  | insertLine => exact request_engineInv_same same_insertLine h
  | replaceLine => exact request_engineInv_same same_replaceLine h
  | deleteLines => exact request_engineInv_same same_deleteLines h
  | clearFault => exact request_engineInv id h
  | designationReport => exact takeScriptMsg_engineInv same_designation h
  | airFrameReport => exact takeScriptMsg_engineInv same_airFrame h
  | run => exact request_engineInv runScroll_engineInv h
  | stop => exact request_engineInv EngineInv.stop h
  | halt => exact request_engineInv (enterHalted_engineInv _) h
  | step => exact request_engineInv stepScroll_engineInv h
  | goTo => exact request_engineInv goToRequest_engineInv h
  | setSpeed => exact request_engineInv setSpeed_engineInv h
  | setMotion => exact request_engineInv setMotion_engineInv h
  | setPreview => exact request_engineInv setPreview_engineInv h
  | frameAdvance =>
    exact asideOnly_engineInv.takeHead (fun _ f u _ hu => frameAdvance_engineInv f (engineReady_engineInv hu)) h
  | insertReport => exact takeReportIf_engineInv _ h
  | deleteReport => exact takeReportIf_engineInv _ h
  | storyIneligibleReport => exact takeReportIf_engineInv _ h
  | storyEligibleReport => exact takeReportIf_engineInv _ h
  | orderChangedReport => exact takeReportIf_engineInv _ h
  | setTarget =>
    refine asideOnly_engineInv.holderInput (fun i f u hf hu => ?_) h
    cases i with
    | setTarget v =>
      cases hf
      exact (engineReady_engineInv hu).setTarget (cutTo_natAbs_le _ _)
    | key | jog => cases hf
  | startStopKey =>
    refine asideOnly_engineInv.holderInput (fun i f u hf hu => ?_) h
    cases i with
    | key => cases hf; exact startStop_engineInv (engineReady_engineInv hu)
    | setTarget | jog => cases hf
  | jog =>
    refine asideOnly_engineInv.holderInput (fun i f u hf hu => ?_) h
    cases i with
    | jog d => cases hf; exact jog_engineInv d (engineReady_engineInv hu)
    | setTarget | key => cases hf
  | stopExpiryAction => exact asideOnly_engineInv.takeHead (fun _ _ u _ hu => (engineReady_engineInv hu).stop) h
  | _ => simp [touches] at hc

theorem engineFactsKept_claim : Claims.EngineFactsKept :=
  kept_of_exec (fun c _ => exec_engineInv c) (fun _ _ h => h) fun _ h => h

end engineInv
end Sys2Proof.Machine

namespace Sys2Proof.Machine

/-! ### Every command keeps the live position in place -/

/-- As the live position reads it, the same part: a script that reads alike, the place, the reports that wait and the Reset
that waits. -/
structure SameReading (s t : State) : Prop where
  alike : Alike s.script t.script
  place : t.engine.place = s.engine.place
  reports : t.mail.engineReports = s.mail.engineReports
  scope : t.link.resetScope = s.link.resetScope

/-- The engine with every report taken, and the live position in place. -/
structure Ready (s : State) : Prop where
  distinct : s.script.Distinct
  reports : s.mail.engineReports = []
  place : s.script.Places s.engine.place

/-- The live position in place, in a script without repetition. -/
structure Placed (s : State) : Prop where
  distinct : s.script.Distinct
  live : LiveInv s

/-- A block that the scroll reads: a line of an eligible story. -/
def ScriptTable.Reads (t : ScriptTable) (b : Nat) : Prop := ∃ k : Slot, t.eligible k = true ∧ b ∈ t.stories[k].lines

section reading
variable {s t u : State} {b : List Byte}

theorem Aside.reading (h : Aside s t) : SameReading s t where
  alike := by rw [h.script]; exact Kin.rfl.alike
  place := by rw [h.engine]
  reports := h.reports
  scope := h.scope

theorem SameReading.rfl : SameReading s s := Aside.rfl.reading

theorem SameReading.trans (h : SameReading s t) (k : SameReading t u) : SameReading s u where
  alike := h.alike.trans k.alike
  place := k.place.trans h.place
  reports := k.reports.trans h.reports
  scope := k.scope.trans h.scope

theorem reading_withEngine {e : Engine} (h : e.place = s.engine.place) : SameReading s (s.withEngine e) :=
  ⟨Kin.rfl.alike, h, rfl, rfl⟩

theorem reading_enterHalted (c : HaltCause) : SameReading s (enterHalted c s) := by
  have h := same_enterHalted (s := s) c
  refine ⟨?_, enterHalted_place c, by rw [h.mail (by decide)], congrArg (·.resetScope) (h.link (by decide))⟩
  rw [enterHalted_script]
  exact Kin.rfl.alike

/-- The reports take the position to the same place in two parts that read the same. -/
theorem LiveInv.reading (h : LiveInv s) (hr : SameReading s t) : LiveInv t where
  reports := hr.reports.symm ▸ h.reports
  reset hs := hr.reports.trans (h.reset (hr.scope ▸ hs))
  live := by
    rw [livePlaced_takeReports, hr.reports, hr.place, hr.alike.moves]
    exact hr.alike.places (livePlaced_takeReports.1 h.live)

theorem asideOnly_live : AsideOnly LiveInv := fun _ _ ha h => h.reading ha.reading

theorem Placed.reading (h : Placed s) (hr : SameReading s t) : Placed t :=
  ⟨hr.alike.distinct h.distinct, h.live.reading hr⟩

theorem asideOnly_placed : AsideOnly Placed := fun _ _ ha h => h.reading ha.reading

theorem Ready.reading (h : Ready s) (hr : SameReading s t) : Ready t where
  distinct := hr.alike.distinct h.distinct
  reports := hr.reports.trans h.reports
  place := hr.place.symm ▸ hr.alike.places h.place

theorem Ready.live (h : Ready s) : LiveInv s := .of_empty h.reports h.place

theorem Ready.placed (h : Ready s) : Placed s := ⟨h.distinct, h.live⟩

theorem Settled.ready (h : Settled s) : Ready s := ⟨h.text.distinct, h.reports, h.place⟩

/-- The reports that wait put the position in place. -/
theorem Placed.ready (h : Placed s) : Ready (engineReady s) where
  distinct := by simpa using h.distinct
  reports := engineReady_engineReports
  place := by
    rw [engineReady_script, engineReady_engine]
    exact livePlaced_iff.1 h.live.live

/-- A part that takes a request has taken every report, since only requests send any (R182, R186). -/
theorem LiveInv.settled (h : LiveInv s) (hi : TextInv s) (hc : s.canTake = true) : Settled (s.withCause true) := by
  have hr : s.mail.engineReports = [] := by
    have hset : s.settled = true := by
      unfold State.canTake at hc
      split at hc
      · cases hc
      · simp only [Bool.and_eq_true] at hc
        exact hc.1.2
    have hn : hasReq s.mail.engineReports = false := by simp_all [State.settled]
    refine List.eq_nil_iff_forall_not_mem.2 fun m hm => ?_
    simpa [h.reports m hm] using List.any_eq_false.1 hn m hm
  refine ⟨(sameText_withCause true).inv hi, hr, rfl, canTake_noReset hc, ?_⟩
  have hp := livePlaced_iff.1 h.live
  rwa [takeReports_none hr] at hp

/-- A request whose owner keeps the position in place where it is carried out. -/
theorem request_live {meant : Request → Bool} {owner : List Byte → State → Answer}
    (ho : ∀ {b u}, Settled u → LiveInv (owner b u).state) (hi : TextInv s) (h : LiveInv s) :
    LiveInv (runRequestIf meant owner s) :=
  asideOnly_live.request (fun hc _ _ => ho (h.settled hi hc)) h

/-- A request of the engine's that moves no position. -/
theorem request_reading {meant : Request → Bool} {owner : List Byte → State → Answer}
    (ho : ∀ {b u}, SameReading u (owner b u).state) (h : LiveInv s) : LiveInv (runRequestIf meant owner s) :=
  asideOnly_live.request (fun _ _ hu => hu.reading ho) h

/-! The engine's operations that move no position -/

theorem stop_place (e : Engine) : e.stop.place = e.place := by
  unfold Engine.stop
  split <;> rfl

theorem setTarget_place (e : Engine) (v : Int) : (e.setTarget v).place = e.place := by
  unfold Engine.setTarget
  dsimp only
  split <;> rfl

theorem reading_beginStep (n : Int) : SameReading s (beginStep n s) := by
  unfold beginStep
  split
  · exact reading_withEngine rfl
  · exact .rfl

theorem reading_startStop : SameReading s (startStop s) := by
  unfold startStop
  split
  · exact .rfl
  · split
    · split
      · exact reading_beginStep _
      · exact reading_withEngine rfl
    · exact reading_withEngine (stop_place _)
    · exact reading_withEngine rfl
    · exact reading_enterHalted _
    · exact reading_enterHalted _

theorem reading_runScroll : SameReading s (runScroll b s).state := by
  unfold runScroll
  split
  · split
    · exact .rfl
    · exact reading_withEngine rfl
  · exact .rfl
  · exact reading_withEngine rfl
  · exact .rfl
  · exact .rfl

theorem reading_stepScroll : SameReading s (stepScroll b s).state := by
  unfold stepScroll
  dsimp only
  split
  · exact .rfl
  · split
    · exact .rfl
    · exact reading_beginStep _

theorem reading_setSpeed : SameReading s (setSpeed b s).state := by
  unfold setSpeed
  dsimp only
  split
  · exact .rfl
  · split
    · exact .rfl
    · exact reading_withEngine (setTarget_place _ _)

theorem reading_setMotion : SameReading s (setMotion b s).state := by
  unfold setMotion
  dsimp only
  split
  · split
    · exact reading_withEngine rfl
    · exact .rfl
  · exact .rfl

theorem reading_setPreview : SameReading s (setPreview b s).state := by
  have hp {x : Option Nat} : SameReading s (s.withEngine { s.engine with preview := x }) := reading_withEngine rfl
  unfold setPreview
  split
  · exact hp
  · generalize ht : (withSlot _ s _).state = t
    obtain rfl | ⟨k, -, ht⟩ := withSlot_inv ht
    · exact .rfl
    dsimp only at ht
    split at ht
    · exact ht ▸ .rfl
    · split at ht
      · exact ht ▸ .rfl
      · exact ht ▸ .rfl
    · split at ht
      · exact ht ▸ hp
      · exact ht ▸ .rfl

/-! Jumps and travel -/

@[simp] theorem designate_engineReports : (designate s).mail.engineReports = s.mail.engineReports :=
  congrArg (·.mail.engineReports) (designate_withReports (s := s) s.mail.engineReports)

@[simp] theorem designate_script : (designate s).script = s.script := same_designate.script (by decide)

/-- A position that is read is in place once it is designated; VOID is in place where no story is eligible. -/
theorem Ready.designate (hd : s.script.Distinct) (hr : s.mail.engineReports = [])
    (hp : ∀ p, s.engine.live = some p → s.script.Reads p.block)
    (hv : s.engine.live = none → ∀ k : Slot, s.script.eligible k = false) : Ready (designate s) where
  distinct := by simpa using hd
  reports := by simpa using hr
  place := by
    have he : (Machine.designate s).engine.place = s.script.settle s.engine.live s.engine.liveSlot := by
      rw [designate_engine]; rfl
    rw [designate_script, he]
    cases hl : s.engine.live with
    | none => exact ⟨fun _ => ⟨rfl, hv hl⟩, nofun⟩
    | some p =>
      obtain ⟨k, hk, hb⟩ := hp p hl
      exact settle_places hd hk hb _

theorem Ready.reads (h : Ready s) {p : Pos} (hp : s.engine.live = some p) : s.script.Reads p.block := by
  obtain ⟨k, -, hk, hb⟩ := h.place.placed p hp
  exact ⟨k, hk, hb⟩

/-- A jump to a line that is read. -/
theorem Ready.jump (h : Ready s) {p : Pos} (hp : s.script.Reads p.block) : Ready (jump (some p) s) := by
  have hd : Ready (Machine.designate (setLive (some p) s)) :=
    .designate h.distinct h.reports (fun q hq => Option.some.inj hq ▸ hp) nofun
  exact ⟨hd.distinct, hd.reports, hd.place⟩

theorem goToRequest_ready (h : Ready s) : Ready (goToRequest b s).state := by
  generalize ht : (goToRequest b s).state = t
  obtain rfl | ⟨k, -, ht⟩ := withSlot_inv ht
  · exact h
  dsimp only at ht
  split at ht
  · exact ht ▸ h
  split at ht
  · exact ht ▸ h
  split at ht
  · next p n _ he hn =>
    have hreads : s.script.Reads n := ⟨k, he, List.mem_of_getElem? hn⟩
    have hgo : Ready (goTo n (u8 b 3) p s) := by
      unfold goTo
      split
      · have hhalt (v : State) (hv : Ready v) (hs : v.script = s.script) :
            Ready (Machine.jump (some { block := n, sub := 0 }) v) := hv.jump (hs.symm ▸ hreads)
        split
        · exact hhalt _ (h.reading (reading_withEngine rfl)) rfl
        · exact hhalt _ (h.reading (reading_enterHalted _)) (enterHalted_script _)
      · exact h.reading (reading_withEngine rfl)
    split at ht
    · split at ht
      · exact ht ▸ h
      · exact ht ▸ hgo
    · exact ht ▸ h
  · exact ht ▸ h

/-- A position in place stays so when it is designated. -/
theorem Ready.redesignate (h : Ready s) : Ready (Machine.designate s) :=
  .designate h.distinct h.reports (fun _ hp => h.reads hp) fun hv => (h.place.void hv).2

/-- A travel ends in place: at the end of its span, or at a line of the span. -/
theorem Ready.travelled (h : Ready s) {p : Pos} {r : Reach} {f : Bool} {x : Travel} {mode : CheckMode}
    {c : State × Option Nat}
    (hr : s.script.reach p.block = some r) (hx : x.stop.block ∈ p.block :: (r.fore ++ r.back))
    (hc : passageCheck p x.stop f mode s = c) : Ready (Machine.designate (arrive (x.answered c.2) c.1)) := by
  have hreads : s.script.Reads (x.answered c.2).stop.block := by
    cases ha : c.2 with
    | none => exact reach_mem h.distinct.order hr hx
    | some b =>
      have hb : b ∈ r.fore := passageCheck_answer hr (by rw [hc, ha])
      exact reach_mem h.distinct.order hr (List.mem_cons_of_mem _ (List.mem_append_left _ hb))
  have hk : CueAside s c.1 := hc ▸ cueAside_passageCheck _ _ _ _
  have ha := same_arrive (s := c.1) (x.answered c.2)
  have hs : (arrive (x.answered c.2) c.1).script = s.script := (ha.script (by decide)).trans hk.script
  have hl : (arrive (x.answered c.2) c.1).engine.live = some (x.answered c.2).stop := arrive_live _
  refine .designate (hs.symm ▸ h.distinct) ?_ (fun q hq => ?_) fun hv => ?_
  · rw [ha.mail (by decide), hk.reports, h.reports]
  · rw [hs, ← Option.some.inj (hl.symm.trans hq)]
    exact hreads
  · cases hl.symm.trans hv

theorem aside_reportAir : Aside s (reportAir s) := by
  unfold reportAir
  split
  · exact .rfl
  · split
    · exact aside_withMail _
    · exact .rfl

theorem Ready.withEngine (h : Ready s) (e : Engine) (he : e.place = s.engine.place) : Ready (s.withEngine e) :=
  h.reading (reading_withEngine he)

theorem Ready.advance (h : Ready s) : Ready (Machine.designate (advance s)) := by
  obtain e | ⟨-, e⟩ | ⟨-, e⟩ | ⟨p, r, v, goal, x, f, hx, e⟩ := advance_cases s
  all_goals rw [e]
  · exact h.redesignate
  · exact (h.withEngine { s.engine with velocity := 0 } rfl).redesignate
  · exact (h.reading (reading_enterHalted _)).redesignate
  · rw [advanceBy_eq]
    have hw : Ready ((s.withEngine { s.engine with goal := goal }).withEngine
        { s.engine with goal := goal, velocity := v }) :=
      (h.withEngine _ rfl).withEngine _ rfl
    exact hw.travelled hx.reach hx.stop rfl

theorem Ready.frameAdvance (h : Ready s) (frame : Half) : Ready (frameAdvance frame s) :=
  have hd := (h.reading aside_reportAir.reading).advance
  ⟨hd.distinct, hd.reports, hd.place⟩

theorem reading_jogHalt : SameReading s (jogHalt s) := by
  unfold jogHalt
  split
  · exact .rfl
  · exact reading_enterHalted _

theorem jogHalt_script : (jogHalt s).script = s.script := by
  unfold jogHalt
  split
  · rfl
  · exact enterHalted_script _

theorem Ready.jog (h : Ready s) (d : Int) : Ready (jog d s) := by
  cases hp : s.engine.live with
  | none => simpa only [Machine.jog, hp] using h
  | some p =>
    cases hr : s.script.reach p.block with
    | none => simpa only [Machine.jog, hp, hr] using h.reading reading_jogHalt
    | some r =>
      by_cases hd : d = 0
      · simpa only [Machine.jog, hp, hr, hd, if_true] using h.reading reading_jogHalt
      · rw [jog_eq hp hr hd]
        have hj : Ready (jogHalt (cueReady s)) := (h.reading cueAside_cueReady.reading).reading reading_jogHalt
        have hs : (jogHalt (cueReady s)).script.reach p.block = some r := by
          rw [jogHalt_script, cueAside_cueReady.script, hr]
        obtain ⟨y, hy⟩ := r.travel_stop p d
        exact hj.travelled hs (x := { stop := (r.travel p d).stop, cause := none }) (hy ▸ r.at_mem _ _) rfl

/-! Reports and resets -/

theorem takeReportIf_live (want : ScriptReport → Bool) (h : LiveInv s) : LiveInv (takeReportIf want s) := by
  unfold takeReportIf takeHead
  split
  · next m rest hm =>
    split
    · next r hr =>
      obtain rfl : m.body = r := Option.some.inj (Option.ite_none_right_eq_some.1 hr).2
      refine asideOnly_live _ _ aside_event (.of_empty takeReports_engineReports ?_)
      have hl := livePlaced_iff.1 h.live
      rw [takeReports_cons hm] at hl
      exact hl
    · exact h
  · exact h

theorem reset_places : ScriptTable.reset.Places (none, none) := ⟨fun _ => ⟨rfl, fun _ => rfl⟩, nofun⟩

/-- No report waits while a Reset does; under SCRIPT the position goes with the script, otherwise it stays. -/
theorem takeReset_live {x : Scope} (hx : s.link.resetScope = some x) (h : LiveInv s) : LiveInv (takeReset x s) := by
  have hr : s.mail.engineReports = [] := h.reset (by rw [hx]; rfl)
  have hp := livePlaced_iff.1 h.live
  rw [takeReports_none hr] at hp
  refine .of_empty ((takeReset_reports x).trans hr) ?_
  have he : (takeReset x s).engine.place = if x.hitsScript then (none, none) else s.engine.place := by
    rw [takeReset_engine]
    unfold engineAfterReset Engine.scopeReset Engine.place
    rw [cueAside_finishCueWork.engine]
    cases x.hitsScript <;> cases x.hitsMotion <;> rfl
  rw [he, takeReset_script]
  split
  · exact reset_places
  · exact hp

theorem clearFault_live (h : Settled s) : LiveInv (clearFault b s).state :=
  h.live.reading ⟨⟨rfl, fun _ => rfl, fun _ => rfl, fun _ => rfl⟩, rfl, rfl, rfl⟩

theorem resetRequest_live (h : Settled s) : LiveInv (resetRequest b s).state := by
  have hs := same_resetRequest (s := s) b
  refine .of_empty (by rw [hs.mail (by decide), h.reports]) ?_
  rw [hs.script (by decide), hs.engine (by decide)]
  exact h.place

theorem reading_designation (k : Slot) : SameReading s (designation k s) := by
  have hs := same_designation (s := s) k
  refine ⟨?_, by rw [hs.engine (by decide)], by rw [hs.mail (by decide)], congrArg (·.resetScope) (hs.link (by decide))⟩
  obtain e | ⟨-, e⟩ := designation_inv k s
  · exact e.alike
  · exact e.alike rfl rfl rfl

theorem reading_airFrame (k : Slot) : SameReading s (airFrame k s) := by
  have hs := same_airFrame (s := s) k
  refine ⟨?_, by rw [hs.engine (by decide)], by rw [hs.mail (by decide)], congrArg (·.resetScope) (hs.link (by decide))⟩
  obtain e | ⟨-, e⟩ := airFrame_inv k s
  · exact e.alike
  · exact e.alike rfl rfl rfl

end reading

section exec
variable {s : State}

/-- The engine takes a message of another channel than the reports once it has taken the reports that wait. -/
theorem takeHead_live {α β : Type} {c : List (Msg α)} {want : α → Option β} {x : List (Msg α) → State → Mail}
    {f : β → State → State} (hf : ∀ i a u, want i = some a → Placed u → Placed (f a u))
    (hi : TextInv s) (h : LiveInv s)
    (hx : ∀ r u, (x r u).engineReports = u.mail.engineReports := by exact fun _ _ => rfl) :
    LiveInv (takeHead c want (fun r u => u.withMail (x r u)) f s) :=
  (asideOnly_placed.takeHead hf ⟨hi.distinct, h⟩ hx).live

theorem takeInput_live {want : HolderInput → Option (State → State)}
    (hf : ∀ i f u, want i = some f → Ready u → Ready (f u)) (hi : TextInv s) (h : LiveInv s) :
    LiveInv (takeInputIf want s) :=
  takeHead_live (fun i f _ hw hu => (hf i f _ hw hu.ready).placed) hi h

theorem exec_live (c : Instr) (hi : TextInv s) (h : LiveInv s) : Ends (exec c s) LiveInv := by
  by_cases hc : .engine ∉ touches c ∧ .script ∉ touches c ∧ c ≠ .reset
  · exact asideOnly_live.aside (exec_aside c hc.1 hc.2.1 hc.2.2) h
  cases c with
  | powerOnReset a b => exact .of_empty rfl reset_places
  | resetTakesEffect =>
    show LiveInv _
    split
    · next x hx =>
      split
      · exact asideOnly_live _ _ aside_event (takeReset_live hx (asideOnly_live _ _ (aside_withCause true) h))
      · exact h
    · exact h
  | reset => exact request_live resetRequest_live hi h
  | openStory => exact request_live openStory_live hi h
  | appendLine => exact request_live appendLine_live hi h
  | closeStoryCommit => exact request_live closeCommit_live hi h
  | closeStoryAbandon => exact request_live closeAbandon_live hi h
  | freeStory => exact request_live freeStory_live hi h
  | setStory => exact request_live setStory_live hi h
  | placeEntry => exact request_live placeEntry_live hi h
  | moveEntry => exact request_live moveEntry_live hi h
  | removeEntry => exact request_live removeEntry_live hi h
  | floatEntry => exact request_live floatEntry_live hi h
  | insertLine => exact request_live insertLine_live hi h
  | replaceLine => exact request_live replaceLine_live hi h
  | deleteLines => exact request_live deleteLines_live hi h
  | clearFault => exact request_live clearFault_live hi h
  | designationReport => exact asideOnly_live.takeHead (fun _ k _ _ hu => hu.reading (reading_designation k)) h
  | airFrameReport => exact asideOnly_live.takeHead (fun _ k _ _ hu => hu.reading (reading_airFrame k)) h
  | run => exact request_reading reading_runScroll h
  | stop => exact request_reading (reading_withEngine (stop_place _)) h
  | halt => exact request_reading (reading_enterHalted _) h
  | step => exact request_reading reading_stepScroll h
  | goTo => exact request_live (fun hu => (goToRequest_ready hu.ready).live) hi h
  | setSpeed => exact request_reading reading_setSpeed h
  | setMotion => exact request_reading reading_setMotion h
  | setPreview => exact request_reading reading_setPreview h
  | frameAdvance => exact takeHead_live (fun _ f _ _ hu => (hu.ready.frameAdvance f).placed) hi h
  | insertReport => exact takeReportIf_live _ h
  | deleteReport => exact takeReportIf_live _ h
  | storyIneligibleReport => exact takeReportIf_live _ h
  | storyEligibleReport => exact takeReportIf_live _ h
  | orderChangedReport => exact takeReportIf_live _ h
  | setTarget =>
    refine takeInput_live (fun i f u hf hu => ?_) hi h
    cases i with
    | setTarget v => cases hf; exact hu.reading (reading_withEngine (setTarget_place _ _))
    | key | jog => cases hf
  | startStopKey =>
    refine takeInput_live (fun i f u hf hu => ?_) hi h
    cases i with
    | key => cases hf; exact hu.reading reading_startStop
    | setTarget | jog => cases hf
  | jog =>
    refine takeInput_live (fun i f u hf hu => ?_) hi h
    cases i with
    | jog d => cases hf; exact hu.jog d
    | setTarget | key => cases hf
  | stopExpiryAction =>
    exact takeHead_live (fun _ _ _ _ hu => (hu.ready.reading (reading_withEngine (stop_place _))).placed) hi h
  | _ => simp [touches] at hc

theorem livePositionKept_claim : Claims.LivePositionKept := by
  refine kept_of_exec (fun c s ⟨hs, hk, hl⟩ => ?_) (fun s rest ⟨hs, hk, hl⟩ => ?_) fun s ⟨hs, hk, hl⟩ => ?_
  · have ht := exec_keepsText c (s := s) ⟨hs, hk⟩
    have hv := exec_live c ⟨hs, hk⟩ hl
    revert ht hv
    cases exec c s with
    | next t => exact fun ht hv => ⟨ht.1, ht.2, hv⟩
    | fault | refused => exact fun h => h.elim
  · have ht : TextInv { s with pending := rest } := SameText.inv (s := s) ⟨rfl, rfl⟩ ⟨hs, hk⟩
    exact ⟨ht.1, ht.2, asideOnly_live s _ ⟨rfl, rfl, rfl, rfl⟩ hl⟩
  · have ht : TextInv s.tick := SameText.inv (s := s) ⟨rfl, rfl⟩ ⟨hs, hk⟩
    exact ⟨ht.1, ht.2, asideOnly_live s _ ⟨rfl, rfl, rfl, rfl⟩ hl⟩

end exec

/-- Settles O15: each operation of the engine keeps its facts; the live position stays in place because a change of the
script and the reports it sends move it together, and every travel ends at a line of its reach. -/
theorem engineKept : Obligations.EngineKept := ⟨engineFactsKept_claim, livePositionKept_claim⟩

end Sys2Proof.Machine

namespace Sys2Proof.Machine

/-! ### The engine's events with no report waiting (log 8) -/

/-- The engine takes the head of a channel with no report waiting: it is ready as it stands. -/
theorem takeHead_ready {α β : Type} {s : State} {c rest : List (Msg α)} {m : Msg α} {x : β} {want : α → Option β}
    {drop : List (Msg α) → State → State} {f : β → State → State} (hc : c = m :: rest) (hw : want m.body = some x)
    (hr : (drop rest s).mail.engineReports = []) :
    takeHead c want drop (fun x u => f x (engineReady u)) s = event m.req (f x) (drop rest s) := by
  rw [hc, takeHead_some hw]
  exact congrArg (fun u => sendIfIdle ((f x u).withCause false))
    (engineReady_none (s := (drop rest s).withCause m.req) hr)

section events
variable {s : State} {req : Bool}

theorem exec_setTarget {v : Int} {rest : List (Msg HolderInput)}
    (hm : s.mail.engineInput = { req := req, body := .setTarget v } :: rest) (hr : s.mail.engineReports = []) :
    exec .setTarget s = .next (event req (fun u => u.withEngine (u.engine.setTarget (cutTo u.engine.settings.maxSpeed v)))
      (s.withMail { s.mail with engineInput := rest })) :=
  congrArg Host.Outcome.next (takeHead_ready (f := fun f : State → State => f) hm rfl hr)

theorem exec_startStopKey {rest : List (Msg HolderInput)}
    (hm : s.mail.engineInput = { req := req, body := .key } :: rest) (hr : s.mail.engineReports = []) :
    exec .startStopKey s = .next (event req startStop (s.withMail { s.mail with engineInput := rest })) :=
  congrArg Host.Outcome.next (takeHead_ready (f := fun f : State → State => f) hm rfl hr)

theorem exec_jog {d : Int} {rest : List (Msg HolderInput)}
    (hm : s.mail.engineInput = { req := req, body := .jog d } :: rest) (hr : s.mail.engineReports = []) :
    exec .jog s = .next (event req (jog d) (s.withMail { s.mail with engineInput := rest })) :=
  congrArg Host.Outcome.next (takeHead_ready (f := fun f : State → State => f) hm rfl hr)

theorem exec_stopExpiryAction {rest : List (Msg Unit)}
    (hm : s.mail.engineStops = { req := req, body := () } :: rest) (hr : s.mail.engineReports = []) :
    exec .stopExpiryAction s = .next (event req (fun u => u.withEngine u.engine.stop)
      (s.withMail { s.mail with engineStops := rest })) :=
  congrArg Host.Outcome.next (takeHead_ready (f := fun _ u => u.withEngine u.engine.stop) hm rfl hr)

/-- A frame start is taken with whatever reports wait. -/
theorem exec_frameAdvance {frame : Half} {rest : List (Msg Half)}
    (hm : s.mail.engineFrames = { req := req, body := frame } :: rest) :
    exec .frameAdvance s = .next (event req (fun u => frameAdvance frame (engineReady u))
      (s.withMail { s.mail with engineFrames := rest })) := by
  refine congrArg Host.Outcome.next ?_
  rw [hm, takeHead_some rfl]

end events

/-! ### Run, Stop and Halt (R78 to R80) -/

/-- Run by the motion state it finds: the owner's answer, case by case. -/
theorem run_claim : Claims.Run := by
  intro s h
  refine ⟨fun hm hl => ?_, fun hm => ?_, fun hm => ?_, fun hm => ?_⟩
  · refine congrArg Host.Outcome.next (runRequest_done h rfl ?_ rfl rfl)
    have hn : s.engine.live.isNone = false := by simpa [Option.isSome_iff_ne_none] using hl
    simp only [runScroll, State.withCause_engine, hm, hn, Bool.false_eq_true, if_false]
    rfl
  · refine congrArg Host.Outcome.next (runRequest_done h rfl ?_ rfl rfl)
    simp only [runScroll, State.withCause_engine, hm]
    rfl
  · refine congrArg Host.Outcome.next (runRequest_done h rfl ?_ rfl rfl)
    simp only [runScroll, State.withCause_engine, hm]
  · refine congrArg Host.Outcome.next (runRequest_refused h rfl ?_)
    rcases hm with ⟨hm, hl⟩ | hm | hm
    · simp [runScroll, hm, hl]
    · simp [runScroll, hm]
    · simp [runScroll, hm]

/-- What STOPPING changes, from every motion state (R79). -/
theorem stop_eq (e : Engine) : e.stop =
    if e.motion = .halted ∨ e.motion = .stopping then e
    else { e with motion := .stopping, goal := none, velocity := cutTo e.settings.maxSpeed e.velocity } := by
  unfold Engine.stop
  cases e.motion <;> rfl

theorem stop_claim : Claims.Stop := by
  intro s
  dsimp only
  refine ⟨fun h => ?_, fun req rest hm hr => ?_⟩
  · refine congrArg Host.Outcome.next (runRequest_done h rfl ?_ rfl rfl)
    exact congrArg (fun e => done [] ((s.withEngine e).withCause true)) (stop_eq s.engine)
  · rw [exec_stopExpiryAction hm hr]
    exact congrArg (fun e => Host.Outcome.next (sendIfIdle { s with
      cause := false, engine := e, mail := { s.mail with engineStops := rest } })) (stop_eq s.engine)

/-- Settles O32: the owner's answer to Run and what STOPPING changes, by motion state. -/
theorem runAndStop : Obligations.RunAndStop := ⟨run_claim, stop_claim⟩

/-- Settles O33: an entry into HALTED, which HALTED does not make again. -/
theorem haltRequest : Obligations.HaltRequest := by
  intro s h
  refine ⟨fun hm => ?_, fun hm => ?_⟩
  · refine congrArg Host.Outcome.next (runRequest_done h rfl ?_ rfl rfl)
    exact congrArg (done []) (if_pos hm)
  · refine congrArg Host.Outcome.next (runRequest_done h rfl ?_ (by simp) (by simp))
    exact congrArg (done []) (if_neg hm)

/-! ### Set Speed and the holder's Set Target (R84, R85), Set Motion (R70), Set Preview (R67) -/

theorem target_claim : Claims.Target := by
  intro s
  dsimp only
  refine ⟨fun body h => ⟨fun hv => ?_, fun hv hd => ?_, fun hv hd => ?_⟩, fun req v rest hm hr => ?_⟩
  · refine congrArg Host.Outcome.next (runRequest_refused h rfl ?_)
    simp [setSpeed, hv]
  · refine congrArg Host.Outcome.next (runRequest_refused h rfl ?_)
    simp [setSpeed, Nat.not_lt.2 hv, hd]
  · refine congrArg Host.Outcome.next (runRequest_done h rfl ?_ rfl rfl)
    simp only [setSpeed, State.withCause_engine, State.withCause_arbiter, Nat.not_lt.2 hv, hd, ne_eq, not_true_eq_false,
      if_false]
    rfl
  · exact exec_setTarget hm hr

/-- A field that is 0 or 1 (11.4). -/
theorem flagOf_le {n : Nat} (h : n ≤ 1) : flagOf n = some (n = 1 : Bool) := by
  interval_cases n <;> rfl

theorem flagOf_gt {n : Nat} (h : 1 < n) : flagOf n = none := by
  unfold flagOf
  split
  · omega
  · omega
  · rfl

theorem setMotion_claim : Claims.SetMotion := by
  intro s body h
  dsimp only
  refine ⟨fun hr => ?_, fun ⟨h1, h2, h3, h4, h5, h6, h7⟩ => ?_⟩
  · refine congrArg Host.Outcome.next (runRequest_refused h rfl ?_)
    rcases Nat.lt_or_ge 1 (u8 body 6) with hf | hf
    · simp [setMotion, flagOf_gt hf]
    · simp only [setMotion, flagOf_le hf]
      exact if_neg fun ⟨h1, h2, h3, h4, h5, h6⟩ => hr ⟨h1, h2, h3, h4, h5, h6, hf⟩
  · refine congrArg Host.Outcome.next (runRequest_done h rfl ?_ rfl rfl)
    simp only [setMotion, flagOf_le h7]
    exact if_pos ⟨h1, h2, h3, h4, h5, h6⟩

theorem setPreview_claim : Claims.SetPreview := by
  intro s body h
  dsimp only
  refine ⟨fun hb => ?_, fun h64 hb => ?_, fun k hk => ?_⟩
  · refine congrArg Host.Outcome.next (runRequest_done h rfl ?_ rfl rfl)
    exact if_pos hb
  · refine congrArg Host.Outcome.next (runRequest_refused h rfl ?_)
    exact (if_neg hb).trans (withSlot_range h64 _ _)
  · have hb : u8 body 0 ≠ 0xFF := by have := k.isLt; omega
    have he (f : Slot → Answer) : (if u8 body 0 = 0xFF then done [] ((s.withCause true).withEngine
        { s.engine with preview := none }) else withSlot (u8 body 0) (s.withCause true) f) = f k :=
      (if_neg hb).trans (withSlot_slot hk _ _)
    refine ⟨fun hs => ?_, fun hs hl => ?_, fun hs hl => ?_, fun b hs hl => ?_⟩
    · refine congrArg Host.Outcome.next (runRequest_refused h rfl ((he _).trans ?_))
      simp only [State.withCause_script, hs]
    · refine congrArg Host.Outcome.next (runRequest_refused h rfl ((he _).trans ?_))
      cases hst : s.script.stories[k].state with
      | free => exact absurd hst hs
      | loading => simp only [State.withCause_script, hst, hl, if_true]
      | ready => simp only [State.withCause_script, hst, List.getElem?_eq_none hl]
    · refine congrArg Host.Outcome.next (runRequest_refused h rfl ((he _).trans ?_))
      simp only [State.withCause_script, hs, Nat.not_le.2 hl, if_false]
    · refine congrArg Host.Outcome.next (runRequest_done h rfl ((he _).trans ?_) rfl rfl)
      simp only [State.withCause_script, hs, hl]
      rfl

/-- Settles O35: each owner's checks in their order, and the engine that an accepted request leaves. -/
theorem targetSettingsAndPreview : Obligations.TargetSettingsAndPreview :=
  ⟨target_claim, setMotion_claim, setPreview_claim⟩

/-! ### Query Motion (R93) -/

/-- Settles O36: the owner answers with the bytes of 11.4 and leaves the part as it is. -/
theorem queryMotion_answers : Obligations.QueryMotion := by
  refine fun s => ⟨fun h => ⟨Config.stepFramesLeft, ?_⟩, fun r rest hr hk hb ht => ?_⟩
  · exact congrArg Host.Outcome.next (runRequest_done h rfl rfl rfl rfl)
  · exact congrArg Host.Outcome.next (runRequest_bodyNotEmpty hr (by rw [hk]; rfl) rfl hb ht)

end Sys2Proof.Machine

namespace Sys2Proof.Machine

/-! ### Step and Go To (R81 to R83) -/

/-- The last of the first lines of a list. -/
theorem getLast?_take_eq {α : Type} (ls : List α) {n : Nat} (hn : n ≠ 0) :
    (ls.take n).getLast? = ls[min n ls.length - 1]? := by
  rw [List.getLast?_eq_getElem?, List.length_take, List.getElem?_take, if_pos (by omega)]

/-- The line of a step: the last that its count names, within reach, ahead or back from the reading line; the start of a line
on which the reading line stands further down is one line back. -/
theorem stepTarget_eq {t : ScriptTable} {p : Pos} {r : Reach} {count : Int} (hr : t.reach p.block = some r)
    (hc : count ≠ 0) : stepTarget t p count =
      ((if 0 < count then r.fore else if p.sub = 0 then r.back else p.block :: r.back).take count.natAbs).getLast? := by
  have hn : count.natAbs ≠ 0 := by omega
  unfold stepTarget
  simp only [hr]
  rw [getLast?_take_eq _ hn]
  by_cases h0 : 0 < count
  · simp only [h0, if_true]
  by_cases hp : p.sub = 0
  · simp only [h0, hp, if_true, if_false]
  simp only [h0, hp, if_false, List.length_cons]
  split
  · next h =>
    have hi : min count.natAbs (r.back.length + 1) - 1 = 0 := by
      rcases h with h | h
      · omega
      · rw [List.isEmpty_iff.1 h, List.length_nil]
        omega
    rw [hi, List.getElem?_cons_zero]
  · next h =>
    have hb : r.back.length ≠ 0 := fun e => h (.inr (List.isEmpty_iff.2 (List.length_eq_zero_iff.1 e)))
    have h1 : count.natAbs ≠ 1 := fun e => h (.inl e)
    have hi : min count.natAbs (r.back.length + 1) - 1 = min (count.natAbs - 1) r.back.length - 1 + 1 := by omega
    rw [hi, List.getElem?_cons_succ]

/-- A step begun at a position: STEPPING to the line it names, or nothing. -/
theorem beginStep_some {s : State} {p : Pos} {n : Int} {b : Nat} (hp : s.engine.live = some p)
    (hb : stepTarget s.script p n = some b) : beginStep n s = s.withEngine { s.engine with
      motion := .stepping, goal := some { glide := false, block := b, framesLeft := 0 } } := by
  simp only [beginStep, hp, Option.bind_some, hb]

theorem beginStep_none {s : State} {p : Pos} {n : Int} (hp : s.engine.live = some p)
    (hb : stepTarget s.script p n = none) : beginStep n s = s := by
  simp only [beginStep, hp, Option.bind_some, hb]

theorem step_claim : Claims.Step := by
  intro s c h
  dsimp only
  have hs8 : s8 [c] 0 = c.toInt := rfl
  refine ⟨fun hr => ?_, fun h0 h16 hm => ?_, fun p r h0 h16 hm hp hr => ?_⟩
  · exact congrArg Host.Outcome.next (runRequest_refused h rfl (if_pos hr))
  · refine congrArg Host.Outcome.next (runRequest_refused h rfl ?_)
    simp [stepScroll, hs8, h0, Nat.not_lt.2 h16, hm]
  · have ho : stepScroll [c] (s.withCause true) = done [] (beginStep c.toInt (s.withCause true)) := by
      simp [stepScroll, hs8, h0, Nat.not_lt.2 h16, hm, hp]
    have ht := stepTarget_eq hr h0
    generalize ((if 0 < c.toInt then r.fore else if p.sub = 0 then r.back else p.block :: r.back).take
      c.toInt.natAbs).getLast? = b at ht ⊢
    cases b with
    | none =>
      rw [beginStep_none (s := s.withCause true) hp ht] at ho
      exact congrArg Host.Outcome.next (runRequest_done h rfl ho rfl rfl)
    | some b =>
      rw [beginStep_some (s := s.withCause true) hp ht] at ho
      exact congrArg Host.Outcome.next (runRequest_done h rfl ho rfl rfl)

/-- Whether a GAP stands among the entries between two. -/
theorem gapBetween_iff {t : ScriptTable} {i j : Nat} : t.gapBetween i j = true ↔
    ∃ e ∈ (t.order.drop (min i j + 1)).take (max i j - min i j - 1), t.standing e = .gap := by
  unfold ScriptTable.gapBetween
  rw [List.any_eq_true]
  simp only [decide_eq_true_eq]

section goToRequest
variable {s : State} {body : List Byte} {k : Slot}

/-- Go To with nothing out of range: State where there is no position or the story is not eligible. -/
theorem goToRequest_state (hk : u8 body 0 = k.val) (hf : u8 body 3 ≤ 250) (hst : s.script.stories[k].state ≠ .free)
    (hl : u16 body 1 < s.script.stories[k].lines.length) (hno : s.engine.live = none ∨ s.script.eligible k = false) :
    goToRequest body s = refuse .state s := by
  unfold goToRequest
  rw [withSlot_slot hk]
  simp only [Nat.not_lt.2 hf, hst, Nat.not_le.2 hl, and_false, or_false, if_false]
  rcases hno with hno | hno
  · simp only [hno]
  · cases s.engine.live <;> simp only [hno]

/-- Go To at an eligible story, between two entries of the order: Gap, or the jump or glide. -/
theorem goToRequest_eq (hk : u8 body 0 = k.val) (hf : u8 body 3 ≤ 250) (hst : s.script.stories[k].state ≠ .free)
    {p : Pos} {a : Slot × Nat} {i j b : Nat} (hb : s.script.stories[k].lines[u16 body 1]? = some b)
    (he : s.script.eligible k = true) (hp : s.engine.live = some p) (ha : s.script.locate p.block = some a)
    (hi : s.script.entryIndex a.1 = some i) (hj : s.script.entryIndex k = some j) :
    goToRequest body s =
      if s.script.gapBetween i j = true then refuse .gap s else done [] (goTo b (u8 body 3) p s) := by
  obtain ⟨hlt, -⟩ := List.getElem?_eq_some_iff.1 hb
  unfold goToRequest
  rw [withSlot_slot hk]
  simp only [Nat.not_lt.2 hf, hst, Nat.not_le.2 hlt, and_false, or_false, if_false, hb, hp, he, ha, Option.bind_some, hi, hj]

end goToRequest

/-- The jump of a Go To: the halt cause ARRIVED, with an entry into HALTED from another state, then the new position. -/
theorem goTo_jump {s : State} {b frames : Nat} {p : Pos} (h : frames = 0 ∨ p = { block := b, sub := 0 }) :
    goTo b frames p s =
      (let e := { s.engine with haltCause := .arrived, haltFrame := s.clock.counter }
       let u := if s.engine.motion = .halted then s.withEngine e
         else raise .scrollHalted (s.withEngine { e with motion := .halted, velocity := 0, goal := none })
       sendJumped (designate (u.withEngine { u.engine with live := some { block := b, sub := 0 } }))) := by
  unfold goTo
  rw [if_pos h]
  by_cases hm : s.engine.motion = .halted
  · simp only [hm, if_true]
    rw [← hm]
    rfl
  · simp only [hm, if_false, enterHalted]
    rfl

/-- A Go To leaves the Link Controller's own part alone. -/
theorem goTo_link {s : State} (b frames : Nat) (p : Pos) : (goTo b frames p s).link.requests = s.link.requests ∧
    (goTo b frames p s).link.replies = s.link.replies :=
  have h := (same_goTo (s := s) b frames p).link (by decide)
  ⟨congrArg (·.requests) h, congrArg (·.replies) h⟩

theorem goTo_claim : Claims.GoTo := by
  intro s body h
  dsimp only
  have hslot (k : Slot) (hk : u8 body 0 = k.val) (f : Slot → Answer) : withSlot (u8 body 0) (s.withCause true) f = f k :=
    withSlot_slot hk _ _
  refine ⟨fun hr => ?_, fun k hk hf => ⟨fun hs hl => ?_, fun hs => ?_, fun hs hl hno => ?_,
    fun p a i j b hs hb he hp ha hi hj => ⟨fun hg => ?_, fun hg => ⟨fun hjump => ?_, fun hf0 hne => ?_⟩⟩⟩⟩
  · refine congrArg Host.Outcome.next (runRequest_refused h rfl ?_)
    rcases Nat.lt_or_ge (u8 body 0) 64 with h64 | h64
    · exact (hslot ⟨_, h64⟩ rfl _).trans (if_pos (.inl (hr.resolve_left (Nat.not_le.2 h64))))
    · exact withSlot_range h64 _ _
  · exact congrArg Host.Outcome.next (runRequest_refused h rfl ((hslot k hk _).trans (if_pos (.inr ⟨hs, hl⟩))))
  · refine congrArg Host.Outcome.next (runRequest_refused h rfl ((hslot k hk _).trans ?_))
    exact (if_neg fun e => e.elim (Nat.not_lt.2 hf) fun e => e.1 hs).trans (if_pos hs)
  · exact congrArg Host.Outcome.next (runRequest_refused h rfl (goToRequest_state (s := s.withCause true) hk hf hs hl hno))
  all_goals have hgo := goToRequest_eq (s := s.withCause true) hk hf hs hb he hp ha hi hj
  · exact congrArg Host.Outcome.next (runRequest_refused h rfl (hgo.trans (if_pos (gapBetween_iff.2 hg))))
  all_goals
    replace hgo := hgo.trans (if_neg fun e => (gapBetween_iff.1 e).elim fun e hx => hg e hx.1 hx.2)
  · have hx := goTo_jump (s := s.withCause true) hjump
    obtain ⟨hq, hr⟩ := goTo_link (s := s.withCause true) b (u8 body 3) p
    exact congrArg Host.Outcome.next (runRequest_answered (a := done [] _) h rfl (hgo.trans (congrArg (done []) hx))
      (done_plain _ _) ((congrArg (·.link.requests) hx).symm.trans hq) ((congrArg (·.link.replies) hx).symm.trans hr))
  · refine congrArg Host.Outcome.next (runRequest_done h rfl (hgo.trans ?_) rfl rfl)
    exact congrArg (done []) (if_neg fun e => e.elim hf0 hne)

/-- Settles O34: the line of a step among those within reach; the checks of Go To in their order, and its jump or glide. -/
theorem stepAndGoTo : Obligations.StepAndGoTo := ⟨step_claim, goTo_claim⟩

end Sys2Proof.Machine

namespace Sys2Proof.Machine

/-! ### The frame start at the Scroll Engine (R71, R77) -/

/-- What the engine's own work leaves alone: the script, the mark of the event, the frame starts that wait and the publishes
on their way to the heads. -/
structure Onward (s t : State) : Prop where
  script : t.script = s.script
  cause : t.cause = s.cause
  frames : t.mail.engineFrames = s.mail.engineFrames
  publish : t.mail.publish = s.mail.publish

section onward
variable {s t u : State}

theorem Onward.rfl : Onward s s := ⟨Eq.refl _, Eq.refl _, Eq.refl _, Eq.refl _⟩

theorem Onward.trans (h : Onward s t) (k : Onward t u) : Onward s u where
  script := k.script.trans h.script
  cause := k.cause.trans h.cause
  frames := k.frames.trans h.frames
  publish := k.publish.trans h.publish

theorem onward_withEngine (e : Engine) : Onward s (s.withEngine e) := ⟨rfl, rfl, rfl, rfl⟩

theorem onward_enterHalted (c : HaltCause) : Onward s (enterHalted c s) := by
  unfold enterHalted
  split
  · exact .rfl
  · exact ⟨rfl, rfl, rfl, rfl⟩

/-- The Designation that a settled position calls for (R66). -/
def State.designations (s : State) : List (Msg ScriptMsg) :=
  match (s.engine.live.bind (fun p => s.script.locate p.block)).map (·.1) with
  | some k => if s.engine.liveSlot = some k then [] else [s.msg (.designation k)]
  | none => []

/-- A Designation changes the slot that the engine holds and the messages to the Script Table. -/
theorem designate_eq (s : State) : designate s =
    (s.withEngine { s.engine with liveSlot := s.script.designated s.engine.live s.engine.liveSlot }).withMail
      { s.mail with toScript := s.mail.toScript ++ s.designations } := by
  have hnil (e : Engine) : (s.withEngine e).withMail { s.mail with toScript := s.mail.toScript ++ [] } = s.withEngine e := by
    rw [List.append_nil]
    rfl
  unfold designate State.designations ScriptTable.designated
  cases hp : s.engine.live with
  | none => exact (hnil _).symm
  | some p =>
    cases hl : s.script.locate p.block with
    | none =>
      simp only [Option.bind_some, hl, Option.map_none, Option.none_or, hnil]
      rfl
    | some a =>
      simp only [Option.bind_some, hl, Option.map_some, Option.some_or]
      split
      · next h =>
        rw [hnil, ← h]
        rfl
      · rfl

theorem onward_designate : Onward s (designate s) := by
  rw [designate_eq]
  exact ⟨rfl, rfl, rfl, rfl⟩

theorem onward_jump (p : Option Pos) : Onward s (jump p s) :=
  ((onward_withEngine _).trans onward_designate).trans ⟨rfl, rfl, rfl, rfl⟩

theorem onward_endGoalIf (gone : Nat → Bool) : Onward s (endGoalIf gone s) := by
  unfold endGoalIf
  split
  · split
    · exact onward_enterHalted _
    · exact .rfl
  · exact .rfl

theorem onward_previewAfterDelete (k : Slot) (i : Nat) (run : List Nat) : Onward s (previewAfterDelete k i run s) := by
  unfold previewAfterDelete
  split
  · split
    · exact onward_withEngine _
    · exact .rfl
  · exact .rfl

theorem onward_liveAfterDelete (k : Slot) (i : Nat) (run : List Nat) : Onward s (liveAfterDelete k i run s) := by
  unfold liveAfterDelete
  split
  · split
    · split
      · exact onward_jump _
      · exact .rfl
    · exact .rfl
  · exact .rfl

theorem onward_takeReport (r : ScriptReport) : Onward s (takeReport r s) := by
  cases r with
  | insert | orderChanged => exact .rfl
  | delete k i run =>
    show Onward s (takeDelete k i run s)
    exact ((onward_previewAfterDelete k i run).trans (onward_liveAfterDelete k i run)).trans (onward_endGoalIf _)
  | ineligible k i =>
    have hj : Onward s (if s.engine.live.isSome ∧ s.engine.liveSlot = some k then
        jump (relocated s.script i) (enterHalted .scriptChange s) else s) := by
      split
      · exact (onward_enterHalted _).trans (onward_jump _)
      · exact .rfl
    show Onward s (takeIneligible k i s)
    unfold takeIneligible
    exact hj.trans (onward_endGoalIf _)
  | eligible k =>
    show Onward s (takeEligible s)
    unfold takeEligible
    split
    · exact .rfl
    · split
      · exact onward_jump _
      · exact .rfl

theorem onward_takeReports : Onward s (takeReports s) := by
  have all : ∀ (rs : List (Msg ScriptReport)) (u : State), Onward u (rs.foldl takeWaiting u) := by
    intro rs
    induction rs with
    | nil => exact fun _ => .rfl
    | cons m rs ih =>
      intro u
      have h := onward_takeReport (s := u.withCause m.req) m.body
      have hm : Onward u (takeWaiting u m) := ⟨h.script, rfl, h.frames, h.publish⟩
      exact hm.trans (ih _)
  exact Onward.trans (t := s.withReports []) ⟨rfl, rfl, rfl, rfl⟩ (all _ _)

theorem onward_sendIfIdle : Onward s (sendIfIdle s) := ⟨by simp, by simp, by simp, by simp⟩

theorem onward_engineReady : Onward s (engineReady s) := by
  unfold engineReady
  split
  · exact .rfl
  · exact onward_takeReports.trans onward_sendIfIdle

theorem onward_arrive (x : Travel) : Onward s (arrive x s) := by
  unfold arrive
  split
  · exact Onward.trans (onward_withEngine _) (onward_enterHalted _)
  · exact onward_withEngine _

theorem onward_passageCheck (a b : Pos) (f : Bool) (mode : CheckMode) : Onward s (passageCheck a b f mode s).1 :=
  have h := cueAside_passageCheck (s := s) a b f mode
  ⟨h.script, h.cause, h.frames, (sameOut_passageCheck a b f mode).2⟩

theorem onward_advanceBy (v : Int) (x : Travel) (f : Bool) (p : Pos) : Onward s (advanceBy v x f p s) := by
  rw [advanceBy_eq]
  exact ((onward_withEngine _).trans (onward_passageCheck _ _ _ _)).trans (onward_arrive _)

theorem onward_advance : Onward s (advance s) := by
  obtain e | ⟨-, e⟩ | ⟨-, e⟩ | ⟨p, r, v, goal, x, f, -, e⟩ := advance_cases s
  all_goals rw [e]
  · exact .rfl
  · exact onward_withEngine _
  · exact onward_enterHalted _
  · exact (onward_withEngine _).trans (onward_advanceBy _ _ _ _)

theorem onward_reportAir : Onward s (reportAir s) := by
  unfold reportAir
  split
  · exact .rfl
  · split
    · exact ⟨rfl, rfl, rfl, rfl⟩
    · exact .rfl

/-! Target, preview and settings are kept (R67, R69) -/

/-- The engine's target, preview and settings are as they were. -/
structure SameAims (e e' : Engine) : Prop where
  target : e'.target = e.target
  preview : e'.preview = e.preview
  settings : e'.settings = e.settings

theorem SameAims.trans {e e' e'' : Engine} (h : SameAims e e') (k : SameAims e' e'') : SameAims e e'' where
  target := k.target.trans h.target
  preview := k.preview.trans h.preview
  settings := k.settings.trans h.settings

theorem aims_enterHalted (c : HaltCause) : SameAims s.engine (enterHalted c s).engine := by
  rw [enterHalted_engine]
  split <;> exact ⟨rfl, rfl, rfl⟩

theorem aims_arrive (x : Travel) : SameAims s.engine (arrive x s).engine := by
  unfold arrive
  split
  · have h := aims_enterHalted (s := setLive (some x.stop) s) (by assumption)
    exact ⟨h.target, h.preview, h.settings⟩
  · exact ⟨rfl, rfl, rfl⟩

theorem aims_advanceBy (v : Int) (x : Travel) (f : Bool) (p : Pos) : SameAims s.engine (advanceBy v x f p s).engine := by
  rw [advanceBy_eq]
  refine SameAims.trans ?_ (aims_arrive _)
  rw [(cueAside_passageCheck _ _ _ _).engine]
  exact ⟨rfl, rfl, rfl⟩

theorem aims_advance : SameAims s.engine (advance s).engine := by
  obtain e | ⟨-, e⟩ | ⟨-, e⟩ | ⟨p, r, v, goal, x, f, -, e⟩ := advance_cases s
  all_goals rw [e]
  · exact ⟨rfl, rfl, rfl⟩
  · exact ⟨rfl, rfl, rfl⟩
  · exact aims_enterHalted _
  · have h := aims_advanceBy (s := s.withEngine { s.engine with goal := goal }) v x f p
    exact ⟨h.target, h.preview, h.settings⟩

theorem aims_designate : SameAims s.engine (designate s).engine := by
  rw [designate_engine]
  exact ⟨rfl, rfl, rfl⟩

theorem aims_frameAdvance (frame : Half) : SameAims s.engine (frameAdvance frame s).engine := by
  have ha : SameAims s.engine (advance (reportAir s)).engine := by
    have h := aims_advance (s := reportAir s)
    rwa [aside_reportAir.engine] at h
  exact ha.trans aims_designate

/-! In HALTED -/

theorem reportAir_halted (h : s.engine.motion = .halted) : reportAir s = s := if_pos h

theorem advance_halted (h : s.engine.motion = .halted) : advance s = s := by
  obtain e | ⟨hm, -⟩ | ⟨hm, -⟩ | ⟨p, r, v, goal, x, f, ha, -⟩ := advance_cases s
  · exact e
  · cases h.symm.trans hm
  · cases h.symm.trans hm
  · exact absurd h ha.moving

theorem mem_designations {m : Msg ScriptMsg} (h : m ∈ s.designations) (k : Slot) : m.body ≠ .airFrame k := by
  unfold State.designations at h
  split at h
  · split at h
    · cases h
    · rw [List.mem_singleton.1 h]; nofun
  · cases h

theorem onward_frameEnd : Onward s (designate (advance (reportAir s))) :=
  (onward_reportAir.trans onward_advance).trans onward_designate

/-- Every Head Link is sent the position record of the state that the frame leaves (R77). -/
theorem frameAdvance_publish (frame : Half) (h : HeadNo) : (frameAdvance frame s).mail.publish[h] =
    s.mail.publish[h] ++ [{ req := s.cause, body := publishOf frame (frameAdvance frame s) }] := by
  have ho := onward_frameEnd (s := s)
  show (Vector.map _ (designate (advance (reportAir s))).mail.publish)[h] = _
  rw [Fin.getElem_fin, Vector.getElem_map, ho.publish]
  exact congrArg (fun c : Bool => s.mail.publish[h] ++
    [({ req := c, body := publishOf frame (frameAdvance frame s) } : Msg Publish)]) ho.cause

theorem frameAdvance_frames (frame : Half) : (frameAdvance frame s).mail.engineFrames = s.mail.engineFrames :=
  onward_frameEnd.frames

theorem frameAdvance_script (frame : Half) : (frameAdvance frame s).script = s.script := onward_frameEnd.script

/-- In HALTED a frame is designated and published, and nothing else. -/
theorem frameAdvance_halted (frame : Half) (h : s.engine.motion = .halted) :
    frameAdvance frame s = sendPublish (publishOf frame (designate s)) (designate s) := by
  unfold frameAdvance
  rw [reportAir_halted h, advance_halted h]

end onward

/-- Settles O37: whatever the engine does with a frame, it keeps the mark of the event and the publishes until its own, which
carries the state it leaves. -/
theorem frameAlwaysPublished : Obligations.FrameAlwaysPublished := by
  intro s req frame rest hm
  obtain ⟨v, hv⟩ : ∃ v, v = (s.withMail { s.mail with engineFrames := rest }).withCause req := ⟨_, rfl⟩
  have hw := onward_engineReady (s := v)
  have hready (hr : s.mail.engineReports = []) : engineReady v = v := engineReady_none (by rw [hv]; exact hr)
  refine ⟨(frameAdvance frame (engineReady v)).withCause false, ?_, ?_, fun h => ?_, fun hr => ?_, fun hr hh => ?_⟩
  · rw [hv]
    exact exec_frameAdvance hm
  · show (frameAdvance frame (engineReady v)).mail.engineFrames = rest
    rw [frameAdvance_frames, hw.frames, hv]
    rfl
  · have hp := frameAdvance_publish (s := engineReady v) frame h
    have hs : (frameAdvance frame (engineReady v)).script = s.script := by
      rw [frameAdvance_script, hw.script, hv]
      rfl
    rw [hw.publish, hw.cause, publishOf, hs] at hp
    rw [State.withCause_mail, hp, hv]
    rfl
  · have h := aims_frameAdvance (s := engineReady v) frame
    rw [hready hr] at h ⊢
    rw [hv] at h ⊢
    exact ⟨h.target, h.preview⟩
  · rw [hready hr, frameAdvance_halted frame (by rw [hv]; exact hh), designate_eq, hv]
    exact ⟨rfl, hh, rfl, rfl, rfl, rfl, _, rfl, fun m hd k => mem_designations hd k⟩

end Sys2Proof.Machine

namespace Sys2Proof.Machine

/-! ### The start/stop key (R86) -/

section key
variable {s : State}

/-- At a VOID position the key does nothing. -/
theorem startStop_void (hl : s.engine.live = none) : startStop s = s := if_pos (Option.isNone_iff_eq_none.2 hl)

theorem startStop_live (hl : s.engine.live ≠ none) : startStop s =
    match s.engine.motion with
    | .halted =>
      if s.engine.settings.stepKeys then beginStep (if 0 ≤ s.engine.target then 1 else -1) s
      else s.withEngine s.engine.run
    | .running => s.withEngine s.engine.stop
    | .stopping => s.withEngine { s.engine with motion := .running }
    | .stepping | .gliding => enterHalted .request s :=
  if_neg fun e => hl (Option.isNone_iff_eq_none.1 e)

/-- In HALTED, with step keys, the key begins a step of one line in the direction of the target. -/
theorem startStop_step (hl : s.engine.live ≠ none) (hm : s.engine.motion = .halted)
    (hk : s.engine.settings.stepKeys = true) :
    startStop s = beginStep (if 0 ≤ s.engine.target then 1 else -1) s := by
  simp only [startStop_live hl, hm, hk, if_true]

theorem startStop_run (hl : s.engine.live ≠ none) (hm : s.engine.motion = .halted)
    (hk : s.engine.settings.stepKeys = false) : startStop s = s.withEngine s.engine.run := by
  simp only [startStop_live hl, hm, hk, Bool.false_eq_true, if_false]

theorem startStop_stop (hl : s.engine.live ≠ none) (hm : s.engine.motion = .running) :
    startStop s = s.withEngine s.engine.stop := by
  simp only [startStop_live hl, hm]

theorem startStop_rerun (hl : s.engine.live ≠ none) (hm : s.engine.motion = .stopping) :
    startStop s = s.withEngine { s.engine with motion := .running } := by
  rw [startStop_live hl, hm]

theorem startStop_halt (hl : s.engine.live ≠ none) (hm : s.engine.motion = .stepping ∨ s.engine.motion = .gliding) :
    startStop s = raise .scrollHalted (s.withEngine (s.engine.halt .request s.clock.counter)) := by
  have hh : enterHalted .request s = raise .scrollHalted (s.withEngine (s.engine.halt .request s.clock.counter)) :=
    if_neg (by rcases hm with hm | hm <;> rw [hm] <;> nofun)
  rw [← hh]
  rcases hm with hm | hm
  · simp only [startStop_live hl, hm]
  · simp only [startStop_live hl, hm]

theorem getLast?_take_one {α : Type} (ls : List α) : (ls.take 1).getLast? = ls.head? := by
  cases ls <;> rfl

/-- The line of a step of one. -/
theorem stepTarget_one {t : ScriptTable} {p : Pos} {r : Reach} (hr : t.reach p.block = some r) (v : Int) :
    stepTarget t p (if 0 ≤ v then 1 else -1) =
      (if 0 ≤ v then r.fore else if p.sub = 0 then r.back else [p.block]).head? := by
  by_cases hv : 0 ≤ v
  · rw [if_pos hv, if_pos hv, stepTarget_eq hr (by decide), if_pos (by decide)]
    exact getLast?_take_one _
  · rw [if_neg hv, if_neg hv, stepTarget_eq hr (by decide), if_neg (by decide)]
    split
    · exact getLast?_take_one _
    · rfl

theorem startStopKey_claim : Claims.StartStopKey := by
  intro s req rest hr
  dsimp only
  refine ⟨fun hm => ?_, fun p r hm hp hreach hh hk => ?_⟩
  all_goals
    have hx := exec_startStopKey hm hr
    obtain ⟨v, hv⟩ : ∃ v, v = (s.withMail { s.mail with engineInput := rest }).withCause req := ⟨_, rfl⟩
    replace hx : exec .startStopKey s = .next (sendIfIdle ((startStop v).withCause false)) := by rw [hv]; exact hx
    have he : v.engine = s.engine := by rw [hv]; rfl
    have ends {x : State} (h : startStop v = x) :
        exec .startStopKey s = .next (sendIfIdle (x.withCause false)) := by rw [hx, h]
  · refine ⟨fun hl => ?_, fun hl => ⟨fun hh hk => ?_, fun hh => ?_, fun hh => ?_, fun hh => ?_⟩⟩
    · rw [ends (startStop_void (he ▸ hl)), hv]
      rfl
    · rw [ends (startStop_run (he ▸ hl) (he ▸ hh) (he ▸ hk)), hv]
      rfl
    · rw [ends (startStop_stop (he ▸ hl) (he ▸ hh)), stop_eq, he, if_neg (by rw [hh]; nofun), hv]
      rfl
    · rw [ends (startStop_rerun (he ▸ hl) (he ▸ hh)), hv]
      rfl
    · rw [ends (startStop_halt (he ▸ hl) (he ▸ hh)), hv]
      rfl
  · have hb := startStop_step (s := v) (by rw [he, hp]; nofun) (he ▸ hh) (he ▸ hk)
    have ht := stepTarget_one hreach s.engine.target
    rw [he] at hb
    generalize (if 0 ≤ s.engine.target then r.fore else if p.sub = 0 then r.back else [p.block]).head? = b at ht ⊢
    have hs : v.script = s.script := by rw [hv]; rfl
    rw [← hs] at ht
    cases b with
    | none => rw [ends (hb.trans (beginStep_none (he ▸ hp) ht)), hv]; rfl
    | some b => rw [ends (hb.trans (beginStep_some (he ▸ hp) ht)), hv]; rfl

end key

end Sys2Proof.Machine

namespace Sys2Proof.Machine

/-! ### How a travel ends (R66, R69, R76), and the jog (R87) -/

section travelled
variable {w a c : State}

theorem designated_some {t : ScriptTable} (q : Pos) (held : Option Slot) :
    t.designated (some q) held = ((t.locate q.block).map (·.1)).or held := rfl

/-- A position that has come to rest is designated. -/
theorem designated_designate {q : Pos} (hl : a.engine.live = some q) (hs : a.script = w.script)
    (hk : a.engine.liveSlot = w.engine.liveSlot) (hc : a.cause = w.cause) (hm : a.mail.toScript = w.mail.toScript) :
    Designated w ((designate a).withCause false) := by
  rw [designate_eq]
  refine ⟨?_, ?_⟩
  · show a.script.designated a.engine.live a.engine.liveSlot = ((a.engine.live.bind _).map _).or _
    rw [hl, hs, hk, designated_some, Option.bind_some]
  · show a.mail.toScript ++ a.designations = _
    cases hslot : (w.script.locate q.block).map (·.1) with
    | none => simp [State.designations, hl, hs, hslot, hm]
    | some k => simp [State.designations, State.msg, hl, hs, hk, hc, hslot, hm]

/-- A travel that the check leaves clear, in a state of travel or without a cause to halt: it rests at its end. -/
theorem travelled_arrive (hc : CueAside w c) (ho : SameOut w c) (x : Travel)
    (hx : x.cause = none ∨ w.engine.motion ≠ .halted) :
    Travelled w (c, none) x.stop x.cause ((designate (arrive x c)).withCause false) := by
  have ha := same_arrive (s := c) x
  have hmail := ha.mail (by decide)
  have hl : (arrive x c).engine.live = some x.stop := arrive_live x
  have he := arrive_engine (s := c) x
  have hd : Designated w ((designate (arrive x c)).withCause false) := by
    refine designated_designate hl ?_ ?_ ?_ ?_
    · rw [ha.script (by decide), hc.script]
    · rw [arrive_liveSlot, hc.engine]
    · rw [(onward_arrive x).cause, hc.cause]
    · rw [hmail, ho.1]
  have hu : ((designate (arrive x c)).withCause false).mail =
      { c.mail with toScript := ((designate (arrive x c)).withCause false).mail.toScript } := by
    rw [designate_eq]
    exact congrArg (fun m : Mail => { m with toScript := (arrive x c).mail.toScript ++ (arrive x c).designations }) hmail
  refine ⟨?_, hd, by rw [hu], ?_⟩
  · rw [designate_eq]
    exact ha.cues (by decide)
  · rw [designate_eq]
    cases hcause : x.cause with
    | none =>
      rw [hcause] at he
      refine ⟨?_, ?_⟩
      · show ({ (arrive x c).engine with liveSlot := _ } : Engine) = _
        rw [he, hc.engine]
        rfl
      · show (arrive x c).link = c.link
        simp only [arrive, hcause]
        rfl
    | some k =>
      have hm : c.engine.motion ≠ .halted := by
        rw [hc.engine]
        exact hx.resolve_left (by rw [hcause]; nofun)
      simp only [hcause, if_neg hm] at he
      refine ⟨?_, ?_⟩
      · show ({ (arrive x c).engine with liveSlot := _ } : Engine) = _
        rw [he, hc.engine, hc.clock]
        rfl
      · show (arrive x c).link = c.link.raise .scrollHalted
        simp only [arrive, hcause]
        exact congrArg State.link (if_neg (c := (setLive (some x.stop) c).engine.motion = .halted) hm)

/-- In HALTED nothing halts: a travel's cause is no matter. -/
theorem arrive_halted {s : State} (x : Travel) (h : s.engine.motion = .halted) :
    arrive x s = arrive { x with cause := none } s := by
  unfold arrive
  cases x.cause with
  | none => rfl
  | some k => exact if_pos h

/-- A travel as its passage check answers it, in a state of travel, or clear and without a cause to halt. -/
theorem travelled_answered {c : State × Option Nat} (hc : CueAside w c.1) (ho : SameOut w c.1) (x : Travel)
    (hx : (c.2 = none ∧ x.cause = none) ∨ w.engine.motion ≠ .halted) :
    Travelled w c x.stop x.cause ((designate (arrive (x.answered c.2) c.1)).withCause false) := by
  obtain ⟨c, b⟩ := c
  cases b with
  | none => exact travelled_arrive hc ho x (hx.imp_left And.right)
  | some b =>
    exact travelled_arrive hc ho { stop := { block := b, sub := 0 }, cause := some .marker }
      (.inr (hx.resolve_left fun e => by cases e.1))

/-- ... and paused in HALTED, where the scroll keeps its cause (R87). -/
theorem travelled_paused {c : State × Option Nat} (hc : CueAside w c.1) (ho : SameOut w c.1) (x : Travel)
    (hm : w.engine.motion = .halted) {b : Nat} (hb : c.2 = some b) :
    Travelled w (c.1, none) { block := b, sub := 0 } none
      ((designate (arrive (x.answered c.2) c.1)).withCause false) := by
  rw [hb, arrive_halted _ (by rw [hc.engine, hm])]
  exact travelled_arrive hc ho { stop := { block := b, sub := 0 }, cause := none } (.inl rfl)

end travelled

section jog
variable {s : State} {p : Pos} {r : Reach} {d : Int}

/-- A travel goes no further than its limits (R74). -/
theorem Reach.travel_clamp (hp : p.sub ≤ 255) :
    (r.travel p d).stop = r.at p.block (max r.behind (min r.ahead ((p.sub : Int) + d))) := by
  have hb : r.behind ≤ 0 := by unfold Reach.behind; omega
  have ha : 255 ≤ r.ahead := by unfold Reach.ahead; omega
  unfold Reach.travel
  dsimp only
  split
  · next h => rw [min_eq_left h.2, max_eq_right (by omega)]
  · next h1 =>
    split
    · next h => rw [min_eq_right (by omega), max_eq_left h.2]
    · next h2 => rw [min_eq_right (by omega), max_eq_right (by omega)]

/-- A jog's first act, by the motion state. -/
theorem jogHalt_eq (s : State) : jogHalt s =
    if s.engine.motion = .running ∨ s.engine.motion = .halted then s
    else raise .scrollHalted (s.withEngine (s.engine.halt .request s.clock.counter)) := by
  unfold jogHalt enterHalted
  by_cases h1 : s.engine.motion = .running
  · rw [if_pos h1, if_pos (.inl h1)]
  by_cases h2 : s.engine.motion = .halted
  · rw [if_neg h1, if_pos h2, if_pos (.inr h2)]
  · rw [if_neg h1, if_neg h2, if_neg fun h => h.elim h1 h2]

theorem jogHalt_running (h : s.engine.motion = .running) : jogHalt s = s := if_pos h

theorem jogHalt_halted (h : s.engine.motion ≠ .running) : (jogHalt s).engine.motion = .halted := by
  unfold jogHalt
  rw [if_neg h]
  exact enterHalted_motion _

theorem onward_jogHalt : Onward s (jogHalt s) := by
  unfold jogHalt
  split
  · exact .rfl
  · exact onward_enterHalted _

theorem aims_jogHalt : SameAims s.engine (jogHalt s).engine := by
  unfold jogHalt
  split
  · exact ⟨rfl, rfl, rfl⟩
  · exact aims_enterHalted _

/-- At a VOID position a jog does nothing. -/
theorem jog_void (h : s.engine.live = none) : jog d s = s := by
  simp only [jog, h]

/-- A jog of 0 travels nothing (log 35). -/
theorem jog_zero (h : s.engine.live ≠ none) : jog 0 s = jogHalt s := by
  obtain ⟨p, hp⟩ := Option.ne_none_iff_exists'.1 h
  cases hr : s.script.reach p.block <;> simp only [jog, hp, hr, if_true]

/-- The part after a jog: halted before, its travel answered by the passage check `c`, and designated. -/
def jogEnd (stop : Pos) (c : State × Option Nat) : State :=
  designate (arrive (Travel.answered { stop := stop, cause := none } c.2) c.1)

theorem jog_travels (hp : s.engine.live = some p) (hsub : p.sub ≤ 255) (hr : s.script.reach p.block = some r)
    (hd : d ≠ 0) :
    let stop := r.at p.block (max r.behind (min r.ahead ((p.sub : Int) + d)))
    jog d s = jogEnd stop (passageCheck p stop (decide (0 < d)) .fire (jogHalt (cueReady s))) := by
  rw [jog_eq hp hr hd, Reach.travel_clamp hsub]
  rfl

/-- A jog sends no publish. -/
theorem jogEnd_publish {c : State × Option Nat} {stop : Pos} (ho : SameOut (jogHalt (cueReady s)) c.1) :
    (jogEnd stop c).mail.publish = s.mail.publish := by
  unfold jogEnd
  rw [onward_designate.publish, (onward_arrive _).publish, ho.2, onward_jogHalt.publish, sameOut_cueReady.2]

/-- A jog keeps target and preview. -/
theorem jogEnd_aims {c : State × Option Nat} {stop : Pos} (hc : CueAside (jogHalt (cueReady s)) c.1) :
    SameAims s.engine (jogEnd stop c).engine := by
  have hj := aims_jogHalt (s := cueReady s)
  rw [cueAside_cueReady.engine, ← hc.engine] at hj
  exact hj.trans ((aims_arrive _).trans aims_designate)

/-- How a jog ends: clear or in RUNNING as its travel and the answer say, paused in HALTED at the line of the PAUSE. -/
theorem jogEnd_travelled {v w u : State} {c : State × Option Nat} {stop : Pos} (hu : (jogEnd stop c).withCause false = u)
    (hw : jogHalt (cueReady v) = w) (hc : CueAside w c.1) (ho : SameOut w c.1) :
    u.mail.publish = v.mail.publish ∧ u.engine.target = v.engine.target ∧ u.engine.preview = v.engine.preview ∧
      (c.2 = none → Travelled w c stop none u) ∧ (v.engine.motion = .running → Travelled w c stop none u) ∧
      ∀ b, v.engine.motion ≠ .running → c.2 = some b → Travelled w (c.1, none) { block := b, sub := 0 } none u := by
  subst hu
  have hm : (cueReady v).engine.motion = v.engine.motion := congrArg (·.motion) cueAside_cueReady.engine
  have ha : SameAims v.engine (jogEnd stop c).engine := jogEnd_aims (hw ▸ hc)
  refine ⟨jogEnd_publish (hw ▸ ho), ha.target, ha.preview, fun hn => ?_, fun hr => ?_, fun b hr hb => ?_⟩
  · exact travelled_answered hc ho { stop := stop, cause := none } (.inl ⟨hn, rfl⟩)
  · refine travelled_answered hc ho { stop := stop, cause := none } (.inr ?_)
    rw [← hw, jogHalt_running (hm.trans hr), hm, hr]
    nofun
  · refine travelled_paused hc ho { stop := stop, cause := none } ?_ hb
    rw [← hw]
    exact jogHalt_halted (hm ▸ hr)

/-- A travel that has come to rest clear. -/
theorem Travelled.clear {w t : State} {c : State × Option Nat} {stop : Pos} (h : Travelled w c stop none t)
    (hc : c.2 = none) :
    t.engine = { w.engine with live := some stop, liveSlot := t.engine.liveSlot } ∧ t.link = c.1.link := by
  obtain ⟨-, -, -, h⟩ := h
  rw [hc] at h
  exact h

/-! With no marker queued -/

theorem passLines_none (mode : CheckMode) (h : s.cues.queue = []) : ∀ bs, passLines mode bs s = (s, none)
  | [] => rfl
  | b :: bs => by
    unfold passLines
    simp only [h, List.find?_nil]
    exact passLines_none mode h bs

/-- A check with nothing queued is clear and lists no notice. -/
theorem passageCheck_empty {a b : Pos} {f : Bool} {mode : CheckMode} (hr : cueReady s = s) (h : s.cues.queue = []) :
    (passageCheck a b f mode s).2 = none ∧ (passageCheck a b f mode s).1.link = s.link := by
  unfold passageCheck
  simp only [hr]
  split
  · exact ⟨rfl, rfl⟩
  · split
    · rw [passLines_none mode h]
      exact ⟨rfl, rfl⟩
    · exact ⟨rfl, rfl⟩

theorem jog_claim : Claims.Jog := by
  intro s req d rest hr hm
  dsimp only
  have hx := exec_jog hm hr
  obtain ⟨v, hv⟩ : ∃ v, v = (s.withMail { s.mail with engineInput := rest }).withCause req := ⟨_, rfl⟩
  replace hx : exec .jog s = .next (sendIfIdle ((jog d v).withCause false)) := by rw [hv]; exact hx
  have he : v.engine = s.engine := by rw [hv]; rfl
  have hs : v.script = s.script := by rw [hv]; rfl
  refine ⟨fun hl => ?_, fun hl hd => ?_, fun p r hp hsub hreach hd => ?_, fun p r hp hsub hreach hd h1 h2 hq hq0 => ?_⟩
  · rw [hx, jog_void (he ▸ hl), hv]
    rfl
  · rw [hx, hd, jog_zero (he ▸ hl), jogHalt_eq, hv]
    rfl
  all_goals
    have hj := jog_travels (he ▸ hp) hsub (hs ▸ hreach) hd
    dsimp only at hj
    rw [hj] at hx
    generalize r.at p.block (max r.behind (min r.ahead ((p.sub : Int) + d))) = stop at hx ⊢
  · obtain ⟨w, hw⟩ : ∃ w, jogHalt (cueReady v) = w := ⟨_, rfl⟩
    rw [hw] at hx
    have ht := jogEnd_travelled (stop := stop) rfl hw (cueAside_passageCheck p stop (decide (0 < d)) .fire)
      (sameOut_passageCheck p stop (decide (0 < d)) .fire)
    rw [jogHalt_eq, cueAside_cueReady.engine, cueAside_cueReady.clock] at hw
    subst hw hv
    exact ⟨_, hx, ht⟩
  · have hcue : cueReady v = v := cueReady_quiet (by rw [hv]; exact hq) (by rw [hv]; exact h1) (by rw [hv]; exact h2)
    obtain ⟨w, hw⟩ : ∃ w, jogHalt v = w := ⟨_, rfl⟩
    rw [hcue, hw] at hx
    obtain ⟨-, -, -, hclear, -⟩ := jogEnd_travelled (stop := stop) rfl (hcue.symm ▸ hw)
      (cueAside_passageCheck p stop (decide (0 < d)) .fire)
      (sameOut_passageCheck p stop (decide (0 < d)) .fire)
    rw [jogHalt_eq] at hw
    have hwc : w.cues = v.cues ∧ w.mail = v.mail := by
      rw [← hw]
      split <;> exact ⟨rfl, rfl⟩
    obtain ⟨hnone, hlink⟩ := passageCheck_empty (s := w) (a := p) (b := stop) (f := decide (0 < d)) (mode := .fire)
      (cueReady_quiet (by rw [hwc.1, hv]; exact hq) (by rw [hwc.2, hv]; exact h1) (by rw [hwc.2, hv]; exact h2))
      (by rw [hwc.1, hv]; exact hq0)
    obtain ⟨hu, hl⟩ := (hclear hnone).clear hnone
    rw [hlink] at hl
    refine ⟨_, hx, by rw [hu], fun hh => ?_, fun h1 h2 => ?_⟩
    · rw [he, if_pos hh] at hw
      rw [hu, hl, ← hw, hv]
      exact ⟨rfl, rfl, rfl, rfl⟩
    · rw [he, if_neg fun h => h.elim h1 h2] at hw
      rw [hu, hl, ← hw, hv]
      exact ⟨rfl, rfl, rfl, rfl, rfl⟩

/-- Settles O40: the key by motion state; the jog as a travel that its passage check has answered. -/
theorem keyAndJog : Obligations.KeyAndJog := ⟨startStopKey_claim, jog_claim⟩

end jog

end Sys2Proof.Machine

namespace Sys2Proof.Machine

/-! ### A PAUSE ahead of the scroll (R76, R141, R142) -/

/-- In a forward span of the reach `r` that ends at `stop`, line `j` is that of the ARMED PAUSE `e`, and no entry is queued
for the lines before it. -/
structure MeetsPause (s : State) (r : Reach) (stop : Pos) (e : CueEntry) (i j k : Nat) : Prop where
  reached : (s.script.reach stop.block).isSome = true
  last : r.fore.findIdx? (· = stop.block) = some i
  entry : s.cues.queue[k]? = some e
  within : j ≤ i
  line : r.fore[j]? = some e.block
  before : ∀ b ∈ r.fore.take j, ∀ o ∈ s.cues.queue, o.block ≠ b
  first : ∀ o ∈ s.cues.queue.take k, o.block ≠ e.block
  pause : e.kind = .pause
  armed : e.skipped = false

section pause
variable {s t w : State} {p stop : Pos} {r : Reach} {e : CueEntry} {i j k : Nat}

/-- It is the script and the queue alone that say so. -/
theorem MeetsPause.of_eq (h : MeetsPause s r stop e i j k) (hk : t.script = s.script) (hc : t.cues = s.cues) :
    MeetsPause t r stop e i j k where
  reached := hk ▸ h.reached
  last := h.last
  entry := hc ▸ h.entry
  within := h.within
  line := h.line
  before := hc ▸ h.before
  first := hc ▸ h.first
  pause := h.pause
  armed := h.armed

/-- Lines without an entry are passed. -/
theorem passLines_append (mode : CheckMode) {bs : List Nat} (h : ∀ b ∈ bs, ∀ o ∈ s.cues.queue, o.block ≠ b)
    (cs : List Nat) : passLines mode (bs ++ cs) s = passLines mode cs s := by
  induction bs with
  | nil => rfl
  | cons b bs ih =>
    have hf : s.cues.queue.find? (·.block = b) = none := by
      simpa using h b List.mem_cons_self
    rw [List.cons_append, passLines]
    simp only [hf]
    exact ih fun c hc => h c (List.mem_cons_of_mem _ hc)

/-- The first entry of a line is the one that its turn finds. -/
theorem find?_of_first {q : List CueEntry} (he : q[k]? = some e) (hf : ∀ o ∈ q.take k, o.block ≠ e.block) :
    q.find? (·.block = e.block) = some e := by
  obtain ⟨hk, hek⟩ := List.getElem?_eq_some_iff.1 he
  have hq : q = q.take k ++ e :: q.drop (k + 1) := by
    rw [← hek, ← List.drop_eq_getElem_cons hk, List.take_append_drop]
  have hn : (q.take k).find? (·.block = e.block) = none := by simpa using hf
  rw [hq, List.find?_append, hn, Option.none_or]
  exact List.find?_cons_of_pos (decide_eq_true rfl)

/-- The check stops at the PAUSE, with its entry taken and Cue Fired raised. -/
theorem MeetsPause.check (h : MeetsPause s r stop e i j k) (hready : cueReady s = s) (hr : s.script.reach p.block = some r) :
    passageCheck p stop true .fire s = (fire e (dropEntry e.block s), some e.block) := by
  obtain ⟨r', hr'⟩ := Option.isSome_iff_exists.1 h.reached
  have hspan : spanLines s.script p stop r' = r.fore.take j ++ e.block :: (r.fore.drop (j + 1)).take (i - j) := by
    obtain ⟨hj, hb⟩ := List.getElem?_eq_some_iff.1 h.line
    have hi : i + 1 = j + (i - j + 1) := by have := h.within; omega
    unfold spanLines
    simp only [hr, h.last]
    rw [hi, List.take_add, List.drop_eq_getElem_cons hj, List.take_succ_cons, hb]
  unfold passageCheck
  simp only [hready, hr', if_true, hspan]
  rw [passLines_append .fire h.before, passLines]
  simp only [find?_of_first h.entry h.first, h.armed, h.pause, reduceCtorEq, Bool.false_eq_true, or_self, if_false, if_true]

/-- A PAUSE that fires does nothing but its record and its notice (R144). -/
theorem fire_pause (h : e.kind = .pause) (u : State) : (fire e u).engine = u.engine ∧ (fire e u).clock = u.clock ∧
    (fire e u).link = u.link.raise .cueFired := by
  unfold fire
  rw [h]
  exact ⟨rfl, rfl, rfl⟩

/-- A travel that meets the PAUSE ends at the start of its line, HALTED with MARKER. -/
theorem MeetsPause.advanceBy {v : Int} {x : Travel} (h : MeetsPause w r x.stop e i j k) (hq : w.cues.quiet = true)
    (h1 : w.mail.cueReports = []) (h2 : w.mail.cueJumps = []) (hr : w.script.reach p.block = some r)
    (hm : w.engine.motion ≠ .halted) (hg : w.engine.motion ≠ .gliding) :
    (advanceBy v x true p w).engine =
        { w.engine with live := some { block := e.block, sub := 0 } }.halt .marker w.clock.counter ∧
      (advanceBy v x true p w).link = (w.link.raise .cueFired).raise .scrollHalted := by
  have hmode : w.engine.checkMode = .fire := if_neg hg
  have hc := (h.of_eq (t := w.withEngine { w.engine with velocity := v }) rfl rfl).check (cueReady_quiet hq h1 h2) hr
  obtain ⟨he, hcl, hl⟩ := fire_pause h.pause (dropEntry e.block (w.withEngine { w.engine with velocity := v }))
  rw [advanceBy_eq, hmode]
  dsimp only
  rw [hc]
  generalize fire e (dropEntry e.block (w.withEngine { w.engine with velocity := v })) = u at he hcl hl
  have hu : u.engine = { w.engine with velocity := v } := he
  have hcu : u.clock = w.clock := hcl
  have hlu : u.link = w.link.raise .cueFired := hl
  have hmu : u.engine.motion ≠ .halted := by rw [hu]; exact hm
  refine ⟨?_, ?_⟩
  · rw [arrive_engine]
    show (if u.engine.motion = .halted then _ else _) = _
    rw [if_neg hmu, hu, hcu]
    rfl
  · rw [← hlu]
    exact congrArg State.link (if_neg (c := (setLive (some { block := e.block, sub := 0 }) u).engine.motion = .halted) hmu)

/-- Air time goes to the Script Table; the engine and all else stay (R71). -/
theorem reportAir_eq (s : State) : ∃ more, reportAir s = s.withMail { s.mail with toScript := s.mail.toScript ++ more } := by
  have hnil : s = s.withMail { s.mail with toScript := s.mail.toScript ++ [] } := by
    rw [List.append_nil]
    rfl
  unfold reportAir
  split
  · exact ⟨[], hnil⟩
  · split
    · exact ⟨_, rfl⟩
    · exact ⟨[], hnil⟩

/-! The forward travel of an advance (R72, R74) -/

/-- A forward travel goes no further than the limit ahead. -/
theorem Reach.travel_forward {v : Int} (hv : 0 < v) :
    (r.travel p v).stop = r.at p.block (min r.ahead ((p.sub : Int) + v)) := by
  unfold Reach.travel
  dsimp only
  split
  · next h => rw [min_eq_left h.2]
  · next h =>
    rw [if_neg fun e => by omega, min_eq_right (by omega)]

/-- A line ahead stands as many sublines on as its place among the lines ahead says. -/
theorem Reach.at_offset {b c : Nat} {x : Int} (h : r.offset b c = some x) (hx : 0 < x) :
    x ≤ r.ahead ∧ r.at b x = { block := c, sub := 0 } := by
  unfold Reach.offset at h
  split at h
  · cases h; omega
  split at h
  · next m hm =>
    obtain ⟨hlt, hc, -⟩ := List.findIdx?_eq_some_iff_getElem.1 hm
    have hc : r.fore[m] = c := of_decide_eq_true hc
    obtain rfl : 256 * ((m : Int) + 1) = x := Option.some.inj h
    have hdiv : (256 * ((m : Int) + 1)).toNat / 256 = m + 1 := by omega
    have hmod : (256 * ((m : Int) + 1)).toNat % 256 = 0 := by omega
    refine ⟨by unfold Reach.ahead; omega, ?_⟩
    rw [Reach.at, if_pos hx.le, hdiv, hmod, List.getD_cons_succ, List.getD_eq_getElem _ _ hlt, hc]
  · cases hi : r.back.findIdx? (· = c) with
    | none => rw [hi] at h; cases h
    | some m =>
      rw [hi] at h
      obtain rfl : -(256 * ((m : Int) + 1)) = x := Option.some.inj h
      omega

end pause

/-- The advance is a travel of velocity `v` from `p`, to the place `v` sublines on or to the limit ahead; of the engine it has
changed the target line at most. -/
def AdvancesForward (s : State) (p : Pos) (r : Reach) (v : Int) : Prop :=
  ∃ goal x, advance s = advanceBy v x true p (s.withEngine { s.engine with goal := goal }) ∧
    x.stop = r.at p.block (min r.ahead ((p.sub : Int) + v))

section forward
variable {s : State} {p : Pos} {r : Reach}

theorem advancesForward_ramp {v : Int} {u : State}
    (he : advance s = if v = 0 then u else advanceBy v (r.travel p v) (decide (0 < v)) p s) (hv : 0 < v) :
    AdvancesForward s p r v := by
  rw [if_neg hv.ne', decide_eq_true hv] at he
  exact ⟨s.engine.goal, _, he, Reach.travel_forward hv⟩

theorem advancesForward_running (hp : s.engine.live = some p) (hr : s.script.reach p.block = some r)
    (hm : s.engine.motion = .running) (hv : 0 < toward s.engine.velocity s.engine.target s.engine.settings.accel) :
    AdvancesForward s p r (toward s.engine.velocity s.engine.target s.engine.settings.accel) :=
  advancesForward_ramp (by simp only [advance, hp, hr, hm]; rfl) hv

theorem advancesForward_stopping (hp : s.engine.live = some p) (hr : s.script.reach p.block = some r)
    (hm : s.engine.motion = .stopping) (hv : 0 < toward s.engine.velocity 0 s.engine.settings.accel) :
    AdvancesForward s p r (toward s.engine.velocity 0 s.engine.settings.accel) :=
  advancesForward_ramp (by simp only [advance, hp, hr, hm]; rfl) hv

theorem advance_stepping {g : Goal} (hp : s.engine.live = some p) (hr : s.script.reach p.block = some r)
    (hm : s.engine.motion = .stepping) (hg : s.engine.goal = some g) : advance s = advanceToGoal g p r s := by
  simp only [advance, hp, hr, hm, hg]

/-- A step with its target line ahead within reach. -/
theorem advancesForward_step {g : Goal} {x : Int} (hp : s.engine.live = some p) (hr : s.script.reach p.block = some r)
    (hm : s.engine.motion = .stepping) (hg : s.engine.goal = some g) (hk : g.glide = false)
    (hx : r.offset p.block g.block = some x) (hv : 0 < min (s.engine.settings.stepSpeed : Int) (x - p.sub)) :
    AdvancesForward s p r (min (s.engine.settings.stepSpeed : Int) (x - p.sub)) := by
  obtain ⟨hahead, hat⟩ := Reach.at_offset hx (by omega)
  have hspeed : goalSpeed g s.engine.settings.stepSpeed (x - p.sub).natAbs =
      min s.engine.settings.stepSpeed (x - p.sub).natAbs := by
    unfold goalSpeed
    rw [hk]
    rfl
  have hd : 0 ≤ x - p.sub := by omega
  have hvs : ((min s.engine.settings.stepSpeed (x - p.sub).natAbs : Nat) : Int) =
      min (s.engine.settings.stepSpeed : Int) (x - p.sub) := by omega
  have he := advance_stepping hp hr hm hg
  unfold advanceToGoal at he
  simp only [hx, State.withEngine_engine, hspeed, hd, decide_true, if_true, hvs] at he
  by_cases hend : (x - p.sub).natAbs ≤ min s.engine.settings.stepSpeed (x - p.sub).natAbs
  · rw [if_pos hend] at he
    refine ⟨_, _, he, ?_⟩
    have hmin : min (s.engine.settings.stepSpeed : Int) (x - p.sub) = x - p.sub := by omega
    rw [hmin, add_sub_cancel, min_eq_right hahead, hat]
  · rw [if_neg hend] at he
    refine ⟨_, _, he, ?_⟩
    have hle := min_le_right (s.engine.settings.stepSpeed : Int) (x - p.sub)
    have hlim : (p.sub : Int) + min (s.engine.settings.stepSpeed : Int) (x - p.sub) ≤ r.ahead := by linarith
    exact congrArg (r.at p.block) (min_eq_right hlim).symm

/-- A step whose target line lies ahead beyond a GAP (log 38). -/
theorem advancesForward_gap {g : Goal} (hp : s.engine.live = some p) (hr : s.script.reach p.block = some r)
    (hm : s.engine.motion = .stepping) (hg : s.engine.goal = some g) (hk : g.glide = false)
    (hx : r.offset p.block g.block = none) (ha : goalAhead s.script p g = true)
    (hv : 0 < (s.engine.settings.stepSpeed : Int)) :
    AdvancesForward s p r s.engine.settings.stepSpeed := by
  have he := advance_stepping hp hr hm hg
  unfold advanceToGoal at he
  simp only [hx, State.withEngine_engine, State.withEngine_script, hk, ha, Bool.false_eq_true, if_true, if_false] at he
  exact ⟨_, _, he, Reach.travel_forward hv⟩

theorem goalAhead_le {t : ScriptTable} {g : Goal} {a b : Slot × Nat} {m n : Nat} (ha : t.locate p.block = some a)
    (hb : t.locate g.block = some b) (hm : t.entryIndex a.1 = some m) (hn : t.entryIndex b.1 = some n) (hle : m ≤ n) :
    goalAhead t p g = true := by
  simp only [goalAhead, ha, hb, Option.bind_some, hm, hn, hle, decide_true]

end forward

/-- The part `t` that a frame leaves of `s` at the PAUSE `e`: the scroll has halted at the start of its line with MARKER. -/
def PausedAt (s : State) (e : CueEntry) (t : State) : Prop :=
  t.engine.live = some { block := e.block, sub := 0 } ∧
    t.engine.motion = .halted ∧ t.engine.velocity = 0 ∧ t.engine.goal = none ∧ t.engine.haltCause = .marker ∧
    t.engine.haltFrame = s.clock.counter ∧ t.engine.target = s.engine.target ∧
    t.engine.preview = s.engine.preview ∧ t.link = (s.link.raise .cueFired).raise .scrollHalted

/-- A frame whose advance meets a PAUSE on its way forward: the scroll halts at its line. -/
theorem frameAdvance_pause {s : State} {p : Pos} {r : Reach} {v : Int} {e : CueEntry} {i j k : Nat} (frame : Half)
    (hq : s.cues.quiet = true) (h1 : s.mail.cueReports = []) (h2 : s.mail.cueJumps = [])
    (hr : s.script.reach p.block = some r) (hm : s.engine.motion ≠ .halted) (hg : s.engine.motion ≠ .gliding)
    (hv : AdvancesForward (reportAir s) p r v)
    (h : MeetsPause s r (r.at p.block (min r.ahead ((p.sub : Int) + v))) e i j k) :
    PausedAt s e (frameAdvance frame s) := by
  obtain ⟨goal, x, hx, hstop⟩ := hv
  obtain ⟨more, ha⟩ := reportAir_eq s
  have hend : (advance (reportAir s)).engine =
        { s.engine with goal := goal, live := some { block := e.block, sub := 0 } }.halt .marker s.clock.counter ∧
      (advance (reportAir s)).link = (s.link.raise .cueFired).raise .scrollHalted := by
    rw [hx, ha]
    exact MeetsPause.advanceBy ((hstop.symm ▸ h : MeetsPause s r x.stop e i j k).of_eq rfl rfl) hq h1 h2 hr hm hg
  have hl : (frameAdvance frame s).link = (advance (reportAir s)).link := by
    show (designate (advance (reportAir s))).link = _
    rw [designate_eq]
    rfl
  obtain ⟨slot, he⟩ : ∃ slot, (frameAdvance frame s).engine = { (advance (reportAir s)).engine with liveSlot := slot } :=
    ⟨_, designate_engine⟩
  unfold PausedAt
  rw [he, hl, hend.1]
  exact ⟨rfl, rfl, rfl, rfl, rfl, rfl, rfl, rfl, hend.2⟩

/-- Settles O43: in each state the advance is a forward travel, whose check answers paused at the line of the PAUSE. -/
theorem pauseStopsTheScroll : Obligations.PauseStopsTheScroll := by
  intro s req frame rest p r hm hrep h1 h2 hq hp hr
  dsimp only
  obtain ⟨v, hv⟩ : ∃ v, v = (s.withMail { s.mail with engineFrames := rest }).withCause req := ⟨_, rfl⟩
  have hx : exec .frameAdvance s = .next (sendIfIdle ((frameAdvance frame v).withCause false)) := by
    have hready : engineReady v = v := engineReady_none (by rw [hv]; exact hrep)
    rw [hv] at hready ⊢
    rw [exec_frameAdvance hm, event]
    exact congrArg (fun u => Host.Outcome.next (sendIfIdle ((frameAdvance frame u).withCause false))) hready
  obtain ⟨more, hair⟩ := reportAir_eq v
  have ends {n : Int} {e : CueEntry} {i j k : Nat} (hmot : s.engine.motion ≠ .halted) (hgl : s.engine.motion ≠ .gliding)
      (ha : AdvancesForward (reportAir v) p r n)
      (h : MeetsPause s r (r.at p.block (min r.ahead ((p.sub : Int) + n))) e i j k) :
      ∃ t, exec .frameAdvance s = .next (sendIfIdle t) ∧ PausedAt s e t := by
    refine ⟨_, hx, ?_⟩
    rw [hv] at ha ⊢
    exact frameAdvance_pause frame hq h1 h2 hr hmot hgl ha (h.of_eq rfl rfl)
  rw [hair, hv] at ends
  refine ⟨fun hmot e i j k h0 hre hi he hji hj hbef hfst hk hs => ?_,
    fun hmot e i j k h0 hre hi he hji hj hbef hfst hk hs => ?_, fun g hmot hg hgl => ⟨fun x hx e i j k h0 hre hi he hji hj hbef
      hfst hk hs => ?_, fun a b m n hx ha hb hm hn hle e i j k h0 hre hi he hji hj hbef hfst hk hs => ?_⟩⟩
  · exact ends (by rw [hmot]; nofun) (by rw [hmot]; nofun) (advancesForward_running hp hr hmot h0)
      ⟨hre, hi, he, hji, hj, hbef, hfst, hk, hs⟩
  · exact ends (by rw [hmot]; nofun) (by rw [hmot]; nofun) (advancesForward_stopping hp hr hmot h0)
      ⟨hre, hi, he, hji, hj, hbef, hfst, hk, hs⟩
  · exact ends (by rw [hmot]; nofun) (by rw [hmot]; nofun) (advancesForward_step hp hr hmot hg hgl hx h0)
      ⟨hre, hi, he, hji, hj, hbef, hfst, hk, hs⟩
  · exact ends (by rw [hmot]; nofun) (by rw [hmot]; nofun)
      (advancesForward_gap hp hr hmot hg hgl hx (goalAhead_le ha hb hm hn hle) h0)
      ⟨hre, hi, he, hji, hj, hbef, hfst, hk, hs⟩

end Sys2Proof.Machine

namespace Sys2Proof.Machine

/-! ### What a command leaves of the blocks, whatever the transmitter does

The frames of `Same` without its premise on the transmitter: the Cue Monitor and the Link Controller, which the transmitter
writes when it begins a frame (R183), are left out. -/

/-- Nothing but the named parts differs between two states, the Cue Monitor and the Link Controller aside. -/
structure SameBlocks (ps : List Part) (s t : State) : Prop where
  store : .store ∉ ps → t.store = s.store
  script : .script ∉ ps → t.script = s.script
  engine : .engine ∉ ps → t.engine = s.engine
  arbiter : .arbiter ∉ ps → t.arbiter = s.arbiter
  ports : .ports ∉ ps → t.ports = s.ports
  clock : .clock ∉ ps → t.clock = s.clock
  heads : .heads ∉ ps → t.heads = s.heads
  mail : .mail ∉ ps → t.mail = s.mail
  now : .now ∉ ps → t.now = s.now

section blocks
variable {ps qs : List Part} {s t u : State}

theorem SameBlocks.rfl : SameBlocks ps s s := by constructor <;> intro <;> trivial

theorem SameBlocks.trans (h : SameBlocks ps s t) (k : SameBlocks ps t u) : SameBlocks ps s u where
  store n := (k.store n).trans (h.store n)
  script n := (k.script n).trans (h.script n)
  engine n := (k.engine n).trans (h.engine n)
  arbiter n := (k.arbiter n).trans (h.arbiter n)
  ports n := (k.ports n).trans (h.ports n)
  clock n := (k.clock n).trans (h.clock n)
  heads n := (k.heads n).trans (h.heads n)
  mail n := (k.mail n).trans (h.mail n)
  now n := (k.now n).trans (h.now n)

/-- An operation whose frame is known, among the parts named. -/
theorem Same.blocks (h : Same qs s t) (hs : qs ⊆ ps := by simp [touches]) : SameBlocks ps s t where
  store n := h.store fun m => n (hs m)
  script n := h.script fun m => n (hs m)
  engine n := h.engine fun m => n (hs m)
  arbiter n := h.arbiter fun m => n (hs m)
  ports n := h.ports fun m => n (hs m)
  clock n := h.clock fun m => n (hs m)
  heads n := h.heads fun m => n (hs m)
  mail n := h.mail fun m => n (hs m)
  now n := h.now fun m => n (hs m)

theorem SameBlocks.mono (h : SameBlocks qs s t) (hs : qs ⊆ ps := by simp [touches]) : SameBlocks ps s t where
  store n := h.store fun m => n (hs m)
  script n := h.script fun m => n (hs m)
  engine n := h.engine fun m => n (hs m)
  arbiter n := h.arbiter fun m => n (hs m)
  ports n := h.ports fun m => n (hs m)
  clock n := h.clock fun m => n (hs m)
  heads n := h.heads fun m => n (hs m)
  mail n := h.mail fun m => n (hs m)
  now n := h.now fun m => n (hs m)

theorem SameBlocks.ite {c : Prop} [Decidable c] (ht : SameBlocks ps s t) (hu : SameBlocks ps s u) :
    SameBlocks ps s (if c then t else u) := by
  split
  · exact ht
  · exact hu

theorem SameBlocks.foldl {β : Type} {g : State → β → State} (h : ∀ s b, SameBlocks ps s (g s b)) :
    ∀ (l : List β) (s : State), SameBlocks ps s (l.foldl g s)
  | [], _ => .rfl
  | b :: l, s => (h s b).trans (SameBlocks.foldl h l _)

theorem blocks_withLink (x : LinkController) : SameBlocks ps s (s.withLink x) := by constructor <;> simp

theorem blocks_sendIfIdle : SameBlocks ps s (sendIfIdle s) := by constructor <;> simp

theorem blocks_transmitNext : SameBlocks ps s (transmitNext s) := by
  unfold transmitNext
  split
  · exact blocks_withLink _
  · constructor <;> simp
  · exact blocks_withLink _

/-! What brings an event about -/

/-- The end of an event: only the transmitter acts. -/
theorem blocks_event {req : Bool} {f : State → State} : SameBlocks ps (f (s.withCause req)) (event req f s) :=
  ((same_withCause false).blocks).trans blocks_sendIfIdle

theorem event_blocks {req : Bool} {f : State → State} (h : ∀ u, SameBlocks ps u (f u)) :
    SameBlocks ps s (event req f s) :=
  ((same_withCause req).blocks.trans (h _)).trans blocks_event

theorem takeHead_blocks {α β : Type} {c : List (Msg α)} {want : α → Option β} {x : List (Msg α) → State → Mail}
    {f : β → State → State} (hf : ∀ x u, SameBlocks ps u (f x u)) (hm : .mail ∈ ps := by simp [touches]) :
    SameBlocks ps s (takeHead c want (fun r u => u.withMail (x r u)) f s) := by
  unfold takeHead
  split
  · split
    · exact ((same_withMail _).blocks (by simpa using hm)).trans (event_blocks (hf _))
    · exact .rfl
  · exact .rfl

/-- A request leaves the blocks as they were, or as its owner makes them. -/
theorem runRequestIf_blocks (meant : Request → Bool) (owner : List Byte → State → Answer) (s : State) :
    SameBlocks ps s (runRequestIf meant owner s) ∨
    ∃ r : Request, SameBlocks ps (owner r.body (s.withCause true)).state (runRequestIf meant owner s) := by
  unfold runRequestIf
  split
  · exact .inl .rfl
  · next r rest _ =>
    split
    · by_cases hf : bodyFits r = true
      · refine .inr ⟨r, ?_⟩
        simp only [hf, if_true]
        refine SameBlocks.trans ?_ blocks_event
        exact blocks_withLink _
      · refine .inl (event_blocks fun u => ?_)
        simp only [hf, Bool.false_eq_true, if_false]
        exact blocks_withLink _
    · exact .inl .rfl

theorem runRequest_blocks {meant : Request → Bool} {owner : List Byte → State → Answer}
    (ho : ∀ {u} b, Same qs u (owner b u).state) (hs : qs ⊆ ps := by simp [touches]) :
    SameBlocks ps s (runRequestIf meant owner s) := by
  obtain h | ⟨r, h⟩ := runRequestIf_blocks meant owner s
  · exact h
  · exact ((same_withCause true).blocks.trans ((ho r.body).blocks hs)).trans h

/-! The work that sets the transmitter going between its steps (R183) -/

theorem blocks_finishCueWork : SameBlocks [.cues, .mail, .notices] s (finishCueWork s) := by
  refine (same_endFlash.blocks.trans same_endCueFlag.blocks).trans (SameBlocks.foldl (fun u n => ?_) _ _)
  unfold expireIfDue
  split
  · exact (same_expireTimer n).blocks.trans blocks_sendIfIdle
  · exact .rfl

theorem blocks_cueReady : SameBlocks [.cues, .mail, .notices] s (cueReady s) :=
  blocks_finishCueWork.trans same_drainCueMail.blocks

theorem blocks_passageCheck (a b : Pos) (fwd : Bool) (mode : CheckMode) :
    SameBlocks [.cues, .mail, .notices] s (passageCheck a b fwd mode s).1 := by
  unfold passageCheck
  dsimp only
  split
  · exact blocks_cueReady
  · split
    · exact blocks_cueReady.trans (same_passLines _ _ _).blocks
    · exact blocks_cueReady.trans (same_setQueue _).blocks

theorem blocks_travelSpan (mode : CheckMode) (fwd : Bool) (a b : Pos) :
    SameBlocks travelParts s (travelSpan mode fwd a b s).1 := by
  unfold travelSpan
  dsimp only
  split <;> exact (blocks_passageCheck _ _ _ _).mono.trans (same_withEngine _).blocks

theorem blocks_advanceBy (v : Int) (x : Travel) (fwd : Bool) (p : Pos) :
    SameBlocks travelParts s (advanceBy v x fwd p s) := by
  have h (mode : CheckMode) := (same_withEngine { s.engine with velocity := v }).blocks.trans
    (blocks_travelSpan (s := s.withEngine { s.engine with velocity := v }) mode fwd p x.stop)
  unfold advanceBy
  generalize (if s.engine.motion = .gliding then CheckMode.silent else .fire) = mode
  dsimp only
  split
  · exact (h _).trans (same_enterHalted _).blocks
  · split
    · exact (h _).trans (same_enterHalted _).blocks
    · exact h _

theorem blocks_advanceToGoal (g : Goal) (p : Pos) (r : Reach) : SameBlocks travelParts s (advanceToGoal g p r s) := by
  unfold advanceToGoal
  dsimp only
  split
  · split <;> exact (same_withEngine _).blocks.trans (blocks_advanceBy _ _ _ _)
  · exact (same_withEngine _).blocks.trans (blocks_advanceBy _ _ _ _)

theorem blocks_advance : SameBlocks travelParts s (advance s) := by
  unfold advance
  split
  · exact .rfl
  · split
    · exact .rfl
    · dsimp only
      split
      · exact .rfl
      · exact .ite (same_withEngine _).blocks (blocks_advanceBy _ _ _ _)
      · exact .ite (same_enterHalted _).blocks (blocks_advanceBy _ _ _ _)
      all_goals
        split
        · exact blocks_advanceToGoal _ _ _
        · exact .rfl

theorem blocks_frameAdvance (f : Half) : SameBlocks travelParts s (frameAdvance f s) :=
  ((same_reportAir.blocks.trans blocks_advance).trans same_designate.blocks).trans (same_sendPublish _).blocks

theorem blocks_engineReady : SameBlocks [.engine, .mail, .notices] s (engineReady s) := by
  unfold engineReady
  split
  · exact .rfl
  · exact same_takeReports.blocks.trans blocks_sendIfIdle

theorem blocks_jog (d : Int) : SameBlocks travelParts s (jog d s) := by
  have ht (a b : Pos) := (blocks_cueReady (s := s).mono.trans same_jogHalt.blocks).trans
    (blocks_travelSpan .fire (decide (0 < d)) a b)
  unfold jog
  split
  · exact .rfl
  · split
    · exact same_jogHalt.blocks
    · split
      · exact same_jogHalt.blocks
      · exact .trans (.ite ((ht _ _).trans (same_enterHalted _).blocks) (ht _ _)) same_designate.blocks

theorem blocks_portReady (p : PortNo) : SameBlocks [.ports, .mail, .notices, .sending] s (portReady p s) :=
  (same_sendIdle p).blocks.trans (.ite ((same_enterFaulted _ _).blocks.trans blocks_sendIfIdle) .rfl)

theorem portEvent_blocks {p : PortNo} {f : State → State}
    (h : ∀ u, SameBlocks [.ports, .mail, .notices, .sending] u (f u)) :
    SameBlocks [.ports, .mail, .notices, .sending] s (portEvent p f s) :=
  event_blocks fun _ => (blocks_portReady p).trans (h _)

theorem blocks_linkFault (c : LinkErrorCause) : SameBlocks ps s (linkFault c s) :=
  .trans ((blocks_withLink _).trans (blocks_withLink _)) blocks_sendIfIdle

theorem blocks_hostGap : SameBlocks ps s (hostGap s) :=
  .ite ((blocks_withLink _).trans (blocks_linkFault _)) .rfl

theorem blocks_offerFrame (k : Byte) (b : List Byte) : SameBlocks ps s (offerFrame k b s) :=
  .ite (blocks_withLink _) (.ite (blocks_withLink _) (blocks_linkFault _))

theorem blocks_hostChars (cs : List LineChar) : SameBlocks ps s (hostChars cs s) := by
  refine blocks_hostGap.trans (SameBlocks.foldl (fun u c => ?_) _ _)
  unfold hostChar
  dsimp only
  split
  · exact (blocks_withLink _).trans (blocks_offerFrame _ _)
  · exact (blocks_withLink _).trans (blocks_linkFault _)
  · exact blocks_withLink _

/-! The channels whose messages bring one block's event -/

theorem takeReportIf_blocks (want : ScriptReport → Bool) :
    SameBlocks [.engine, .mail, .notices, .sending] s (takeReportIf want s) :=
  takeHead_blocks fun r _ => (same_takeReport r).blocks.trans same_takeReports.blocks

theorem takePortMsg_blocks {β : Type} {p : PortNo} {want : PortMsg → Option β} {f : β → State → State}
    (hf : ∀ x u, SameBlocks ps u (f x u)) (hm : .mail ∈ ps := by simp [touches]) :
    SameBlocks ps s (takePortMsg p want f s) :=
  takeHead_blocks hf hm

theorem takeCueReportIf_blocks {α : Type} (want : CueMsg → Option α) :
    SameBlocks [.cues, .mail, .notices, .sending] s (takeCueReportIf want s) :=
  takeHead_blocks fun _ _ => blocks_finishCueWork.mono.trans same_rebuild.blocks

theorem takeInputIf_blocks {want : HolderInput → Option (State → State)}
    (h : ∀ i f, want i = some f → ∀ u, SameBlocks ps u (f u))
    (hs : [.engine, .mail, .notices] ⊆ ps := by simp [touches]) : SameBlocks ps s (takeInputIf want s) := by
  unfold takeInputIf takeHead
  split
  · split
    · next x hx =>
      exact ((same_withMail _).blocks (List.Subset.trans (by simp) hs)).trans
        (event_blocks fun _ => (blocks_engineReady.mono hs).trans (h _ _ hx _))
    · exact .rfl
  · exact .rfl

/-- A command leaves every block that the rules do not let it change, the messages and the timebase too. -/
theorem exec_blocks (c : Instr) : Ends (exec c s) (SameBlocks (touches c) s) := by
  cases c with
  | powerOnReset | resetTakesEffect => exact ⟨by simp [touches], by simp [touches], by simp [touches],
      by simp [touches], by simp [touches], by simp [touches], by simp [touches], by simp [touches], by simp [touches]⟩
  | checkedFrame cs => exact event_blocks fun _ => blocks_hostChars cs
  | receiveFault cs => exact event_blocks fun _ => blocks_hostChars cs
  | frameTimeout => exact event_blocks fun _ => blocks_hostGap
  | unknownRequest =>
    show SameBlocks _ s _
    split
    · exact .rfl
    · exact .ite (event_blocks fun _ => blocks_withLink _) .rfl
  | transmitNext => exact SameBlocks.ite .rfl (event_blocks fun _ => blocks_transmitNext)
  | openStory => exact runRequest_blocks same_openStory
  | appendLine => exact runRequest_blocks same_appendLine
  | closeStoryCommit => exact runRequest_blocks same_closeCommit
  | closeStoryAbandon => exact runRequest_blocks same_closeAbandon
  | freeStory => exact runRequest_blocks same_freeStory
  | setStory => exact runRequest_blocks same_setStory
  | queryStory => exact runRequest_blocks same_queryStory
  | queryStore => exact runRequest_blocks (qs := []) fun _ => Same.rfl
  | placeEntry => exact runRequest_blocks same_placeEntry
  | moveEntry => exact runRequest_blocks same_moveEntry
  | removeEntry => exact runRequest_blocks same_removeEntry
  | floatEntry => exact runRequest_blocks same_floatEntry
  | queryOrder => exact runRequest_blocks (qs := []) fun _ => Same.rfl
  | insertLine => exact runRequest_blocks same_insertLine
  | replaceLine => exact runRequest_blocks same_replaceLine
  | deleteLines => exact runRequest_blocks same_deleteLines
  | readLine => exact runRequest_blocks same_readLine
  | queryFault => exact runRequest_blocks (qs := []) fun _ => Same.rfl
  | clearFault => exact runRequest_blocks (qs := [.script]) fun _ => same_withScript _
  | designationReport => exact takeHead_blocks fun k _ => (same_designation k).blocks
  | airFrameReport => exact takeHead_blocks fun k _ => (same_airFrame k).blocks
  | run => exact runRequest_blocks same_runScroll
  | stop => exact runRequest_blocks (qs := [.engine]) fun _ => same_withEngine _
  | halt => exact runRequest_blocks (qs := [.engine, .notices]) fun _ => same_enterHalted _
  | step => exact runRequest_blocks same_stepScroll
  | goTo => exact runRequest_blocks same_goToRequest
  | setSpeed => exact runRequest_blocks same_setSpeed
  | setMotion => exact runRequest_blocks same_setMotion
  | setPreview => exact runRequest_blocks same_setPreview
  | queryMotion => exact runRequest_blocks (qs := []) fun _ => Same.rfl
  | frameAdvance => exact takeHead_blocks fun f _ => blocks_engineReady.mono.trans (blocks_frameAdvance f)
  | insertReport => exact takeReportIf_blocks _
  | deleteReport => exact takeReportIf_blocks _
  | storyIneligibleReport => exact takeReportIf_blocks _
  | storyEligibleReport => exact takeReportIf_blocks _
  | orderChangedReport => exact takeReportIf_blocks _
  | setTarget => exact takeInputIf_blocks fun | .setTarget _, _, rfl, _ => (same_withEngine _).blocks
  | startStopKey => exact takeInputIf_blocks fun | .key, _, rfl, _ => same_startStop.blocks
  | jog => exact takeInputIf_blocks fun | .jog d, _, rfl, _ => blocks_jog d
  | stopExpiryAction => exact takeHead_blocks fun _ _ => blocks_engineReady.mono.trans (same_withEngine _).blocks
  | setDriveMode => exact runRequest_blocks same_setDriveMode
  | setPortClass => exact runRequest_blocks same_setPortClass
  | pinDrive => exact runRequest_blocks same_pinDrive
  | claimDrive => exact runRequest_blocks same_claimDrive
  | releaseDrive => exact runRequest_blocks same_releaseDrive
  | queryDrive => exact runRequest_blocks (qs := []) fun _ => Same.rfl
  | claim p => exact takePortMsg_blocks fun _ _ => (same_arbiterEvent _).blocks
  | idle p => exact takePortMsg_blocks fun _ _ => (same_arbiterEvent _).blocks
  | portReady p => exact takePortMsg_blocks fun _ _ => (same_arbiterEvent _).blocks
  | portGone p => exact takePortMsg_blocks fun _ _ => (same_arbiterEvent _).blocks
  | passHolderInput p => exact takePortMsg_blocks fun x _ => (same_iteState (same_sendInput x) Same.rfl).blocks
  | standingReport p => exact takeHead_blocks fun _ _ => (blocks_portReady p).trans (same_updatePort _ _).blocks
  | enablePort => exact runRequest_blocks same_enablePort
  | disablePort => exact runRequest_blocks same_disablePort
  | resetPort => exact runRequest_blocks same_resetPort
  | setPort => exact runRequest_blocks same_setPort
  | setLamp => exact runRequest_blocks same_setLamp
  | queryPort =>
    exact SameBlocks.ite (event_blocks fun _ => same_finishAcks.blocks) (runRequest_blocks same_queryPort)
  | presenceFound p =>
    exact portEvent_blocks fun _ => .ite ((same_updatePort _ _).blocks.trans (same_setChange _ _).blocks) .rfl
  | presenceLost p =>
    exact portEvent_blocks fun _ =>
      .ite (((same_updatePort _ _).blocks.trans (same_setChange _ _).blocks).trans (same_leaveEnabled _ _).blocks) .rfl
  | holdOffEnd p =>
    refine portEvent_blocks fun u => ?_
    split
    · exact .ite (same_updatePort _ _).blocks .rfl
    · exact .rfl
  | overcurrent p =>
    exact portEvent_blocks fun _ => .ite ((same_updatePort _ _).blocks.trans (same_enterFaulted _ _).blocks) .rfl
  | poll p => exact portEvent_blocks fun _ => .ite (same_updatePort _ _).blocks .rfl
  | silenceFault p => exact event_blocks fun _ => blocks_portReady p
  | hello p cs => exact portEvent_blocks fun _ => (same_portChars p cs).blocks
  | dataReport p cs => exact portEvent_blocks fun _ => (same_portChars p cs).blocks
  | releaseTimeReached p => exact event_blocks fun _ => (same_sendIdle p).blocks
  | lampFlash p => exact takeHead_blocks fun _ _ => (blocks_portReady p).trans (same_updatePort _ _).blocks
  | lampFlashEnd p => exact takeHead_blocks fun _ _ => (blocks_portReady p).trans (same_updatePort _ _).blocks
  | cueFrameStart => exact takeHead_blocks fun _ _ => blocks_cueReady.mono.trans (same_withCues _).blocks
  | flashCountEnd => exact event_blocks fun _ => same_endFlash.blocks
  | cueFlagCountEnd => exact event_blocks fun _ => same_endCueFlag.blocks
  | timerExpiry n =>
    exact SameBlocks.ite (event_blocks fun _ =>
      (same_endFlash.blocks.trans same_endCueFlag.blocks).trans (same_expireTimer n).blocks) .rfl
  | positionJumped => exact takeHead_blocks fun _ _ => blocks_finishCueWork.mono.trans same_rebuild.blocks
  | lineRewritten => exact takeCueReportIf_blocks _
  | scriptChangeReport => exact takeCueReportIf_blocks _
  | queryCues => exact runRequest_blocks (qs := []) fun _ => Same.rfl
  | skipCue => exact runRequest_blocks same_skipCue
  | setTimer => exact runRequest_blocks same_setTimer
  | startTimer => exact runRequest_blocks same_startTimerRequest
  | stopTimer => exact runRequest_blocks same_stopTimerRequest
  | queryTimers => exact runRequest_blocks (qs := []) fun _ => Same.rfl
  | freeRunFrameStart => exact event_blocks fun _ => .ite same_frameStart.blocks .rfl
  | referencePulse => exact event_blocks fun _ => same_takePulse.blocks
  | flywheelFrame =>
    exact event_blocks fun _ => .ite (same_frameStart.blocks.trans
      (.ite ((same_withClock _).blocks.trans (same_raise _).blocks) (same_withClock _).blocks)) .rfl
  | setFrame => exact runRequest_blocks same_setFrame
  | setReference => exact runRequest_blocks same_setReference
  | queryFrame => exact runRequest_blocks (qs := []) fun _ => Same.rfl
  | viewBuild h => exact takeHead_blocks fun x _ => (same_takePublish x h).blocks
  | headReady h cs => exact event_blocks fun _ => (same_headChars h cs).blocks
  | fetch h cs => exact event_blocks fun _ => (same_headChars h cs).blocks
  | headFrameDiscard h cs => exact event_blocks fun _ => (same_headChars h cs).blocks
  | headSilenceTimeout h =>
    exact event_blocks fun _ => .ite ((same_updateHead _ _).blocks.trans (same_raise _).blocks) .rfl
  | headTransmit h => exact event_blocks fun _ => (same_updateHead _ _).blocks
  | cueFlag h => exact takeHead_blocks fun _ _ => (same_updateHead _ _).blocks
  | cueFlagEnd h => exact takeHead_blocks fun _ _ => (same_updateHead _ _).blocks
  | setHead => exact runRequest_blocks same_setHead
  | queryHead => exact runRequest_blocks same_queryHead
  | identify => exact runRequest_blocks (qs := []) fun _ => Same.rfl
  | setNotices => exact runRequest_blocks same_setNotices
  | reset => exact runRequest_blocks same_resetRequest

end blocks
end Sys2Proof.Machine

namespace Sys2Proof.Machine

/-! ### The operations of a port on the state, each said once (R97 to R111) -/

section rules
variable (s : State) (p : PortNo)

/-- A port put in its own place. -/
@[simp] theorem withPort_port : s.withPort p s.ports[p] = s := by
  simp [State.withPort]

theorem updatePort_eq (f : Port → Port) : updatePort p f s = s.withPort p (f s.ports[p]) := rfl

/-- Two changes of one port are one. -/
@[simp] theorem updatePort_withPort (f : Port → Port) (q : Port) : updatePort p f (s.withPort p q) = s.withPort p (f q) := by
  rw [updatePort_eq, withPort_self, withPort_twice]

theorem Port.setFlag_of_flag {q : Port} {f : ChangeFlag} (h : q.flag f = true) : q.setFlag f = q := by
  cases f <;> cases q <;> cases h <;> rfl

/-- What a change flag makes of the port, whether it was set or not (R101). -/
@[simp] theorem setChange_port (f : ChangeFlag) : (setChange f p s).ports[p] = s.ports[p].setFlag f := by
  unfold setChange
  dsimp only
  split
  case isTrue h => exact (Port.setFlag_of_flag h).symm
  case isFalse => exact withPort_self _ _ _

theorem setChange_port_other (f : ChangeFlag) {r : PortNo} (h : r ≠ p) : (setChange f p s).ports[r] = s.ports[r] := by
  unfold setChange
  dsimp only
  split
  · rfl
  · exact withPort_other _ _ h

/-! Messages to the arbiter -/

@[simp] theorem sendArbiter_ports (m : PortMsg) : (sendArbiter p m s).ports = s.ports := rfl
@[simp] theorem sendArbiter_link (m : PortMsg) : (sendArbiter p m s).link = s.link := rfl

/-- A message joins the tail of the port's own channel. -/
@[simp] theorem sendArbiter_toArbiter (m : PortMsg) :
    (sendArbiter p m s).mail.toArbiter[p] = s.mail.toArbiter[p] ++ [s.msg m] := by
  simp [sendArbiter]

/-- Messages sent the arbiter, one after another. -/
def sendAll (p : PortNo) (ms : List PortMsg) (s : State) : State := ms.foldl (fun u m => sendArbiter p m u) s

@[simp] theorem sendAll_nil : sendAll p [] s = s := rfl
@[simp] theorem sendAll_cons (m : PortMsg) (ms : List PortMsg) : sendAll p (m :: ms) s = sendAll p ms (sendArbiter p m s) :=
  rfl
theorem sendAll_append (ms ns : List PortMsg) : sendAll p (ms ++ ns) s = sendAll p ns (sendAll p ms s) :=
  List.foldl_append

theorem sendAll_singleton (m : PortMsg) : sendAll p [m] s = sendArbiter p m s := rfl

theorem sendSome_eq (x : Option PortMsg) : sendSome p x s = sendAll p x.toList s := by cases x <;> rfl

/-- They join the tail of the port's own channel in order, and change nothing else. -/
theorem sendAll_eq (ms : List PortMsg) : sendAll p ms s = s.withMail { s.mail with
    toArbiter := s.mail.toArbiter.set p.val (s.mail.toArbiter[p] ++ ms.map s.msg) p.isLt } := by
  induction ms generalizing s with
  | nil => simp [State.withMail]
  | cons m ms ih =>
    have hm : (sendArbiter p m s).msg = (s.msg : PortMsg → Msg PortMsg) := rfl
    rw [sendAll_cons, ih, hm, sendArbiter_toArbiter, List.append_assoc]
    simp [sendArbiter, State.withMail]

@[simp] theorem sendAll_ports (ms : List PortMsg) : (sendAll p ms s).ports = s.ports := by rw [sendAll_eq]; rfl
@[simp] theorem sendAll_link (ms : List PortMsg) : (sendAll p ms s).link = s.link := by rw [sendAll_eq]; rfl
@[simp] theorem sendAll_engine (ms : List PortMsg) : (sendAll p ms s).engine = s.engine := by rw [sendAll_eq]; rfl
@[simp] theorem sendAll_toArbiter (ms : List PortMsg) :
    (sendAll p ms s).mail.toArbiter[p] = s.mail.toArbiter[p] ++ ms.map s.msg := by
  rw [sendAll_eq]; simp

/-- A change of the port and what it sends do not meet. -/
theorem sendAll_withPort (ms : List PortMsg) (q : Port) :
    (sendAll p ms s).withPort p q = sendAll p ms (s.withPort p q) := by
  rw [sendAll_eq, sendAll_eq]; rfl

end rules

/-! ### A poll closed (R97, R105) -/

/-- Closing a poll: the two counts, and whether Idle falls due. -/
theorem Port.closePoll_eq (q : Port) :
    let idle := if q.answered = false ∧ q.state = .enabled ∧ q.idleSent = false then min (q.idle + 1) 1000 else q.idle
    q.closePoll = { q with
      silence := if q.answered then q.silence else min (q.silence + 1) 10
      idle := idle
      releaseDue := decide (q.state = .enabled ∧ q.idleSent = false ∧ q.common.releaseTime ≤ idle) } := by
  unfold Port.closePoll Port.judgeIdle Port.moreIdle
  cases ha : q.answered <;> cases hi : q.idleSent <;> by_cases he : q.state = .enabled <;> simp [ha, hi, he]

/-! ### A Hello (R99) -/

section hello
variable {s : State} {p : PortNo} (k : Kind)

/-- A port that has heard a Hello, its state aside. -/
def Port.greeted (q : Port) (k : Kind) : Port :=
  { q.clearInput with kind := some k, sums := Vector.replicate 5 0, acquired := 0, silence := 0, answered := true }

/-- A holding port finds its pickup state again. -/
def Port.repicked (q : Port) : Port := if q.drive = .holding then { q with pickup := q.freshPickup }.relamp else q

/-- A port in ATTACHED or ENABLED whose control has started again. -/
def Port.restarted (q : Port) (k : Kind) : Port :=
  if q.state = .enabled then (q.greeted k).repicked.moreIdle.judgeIdle else (q.greeted k).repicked

/-- A port as it enters ENABLED. -/
def Port.entered (q : Port) : Port := { q with state := .enabled, idle := 0, idleSent := false, releaseDue := false }

/-- The first Hello, in IDENTIFYING. -/
theorem takeHello_first (h : s.ports[p].state = .identifying) : takeHello k p s =
    if s.ports[p].common.autoEnable then sendArbiter p .ready (s.withPort p (s.ports[p].greeted k).entered)
    else s.withPort p { s.ports[p].greeted k with state := .attached } := by
  unfold takeHello
  dsimp only
  rw [updatePort_eq s, updatePort_withPort, h, enterEnabled, updatePort_withPort, withPort_self]
  rfl

/-- A later one. -/
theorem takeHello_again (h : s.ports[p].state ≠ .identifying) :
    takeHello k p s = s.withPort p (s.ports[p].restarted k) := by
  unfold takeHello
  dsimp only
  split
  · next he => exact absurd he h
  · show (if s.ports[p].state = .enabled then updatePort p (·.moreIdle.judgeIdle)
        (updatePort p Port.repicked (updatePort p (·.greeted k) s))
      else updatePort p Port.repicked (updatePort p (·.greeted k) s)) = _
    rw [updatePort_eq s, updatePort_withPort, updatePort_withPort, Port.restarted]
    split <;> rfl

end hello

/-! ### A data report (R105 to R111) -/

section data
variable {s : State} {p : PortNo} (d : DataReport)

/-- The mapped target met with the target of the engine: the pickup state (R111). -/
def Port.met (q : Port) (t : Int) : Port :=
  match q.mapped with
  | some m => { q with pickup := q.pickupWith m t }.relamp
  | none => q

/-- ... and last sent, once what is to be sent has been. -/
def Port.settled (q : Port) : Port := { q with lastSent := (q.absoluteTarget q.mapped).or q.lastSent }

/-- What forming input from a report makes of the port (R106). -/
def Port.formed (q : Port) (d : DataReport) (t : Int) : Port :=
  match d with
  | .wheel _ _ => q
  | .strip _ _ | .pedal _ _ => (q.met t).settled

/-- The START_STOP press of a report. -/
def DataReport.press (d : DataReport) : Option PortMsg := if d.keys.startStop then some .key else none

/-- The input formed from a report, in the order in which it is sent (R106). -/
def Port.input (q : Port) (d : DataReport) (t : Int) : List PortMsg :=
  match d with
  | .wheel delta k =>
    ((q.wheelTarget delta k.reverse t).map PortMsg.setTarget).toList ++ d.press.toList ++
      ((q.wheelJog delta).map PortMsg.jog).toList
  | .strip _ _ | .pedal _ _ =>
    (((q.met t).absoluteTarget (q.met t).mapped).map PortMsg.setTarget).toList ++ d.press.toList

theorem formInput_eq : formInput p d s =
    sendAll p (s.ports[p].input d s.engine.target) (s.withPort p (s.ports[p].formed d s.engine.target)) := by
  have absolute : sendSome p d.press (sendSome p
      (((s.ports[p].met s.engine.target).absoluteTarget (s.ports[p].met s.engine.target).mapped).map PortMsg.setTarget)
      (updatePort p (fun q => { q with
          lastSent := ((s.ports[p].met s.engine.target).absoluteTarget (s.ports[p].met s.engine.target).mapped).or
            q.lastSent }) (s.withPort p (s.ports[p].met s.engine.target)))) =
      sendAll p ((((s.ports[p].met s.engine.target).absoluteTarget (s.ports[p].met s.engine.target).mapped).map
        PortMsg.setTarget).toList ++ d.press.toList) (s.withPort p (s.ports[p].met s.engine.target).settled) := by
    rw [sendSome_eq, sendSome_eq, ← sendAll_append, updatePort_withPort]
    rfl
  cases d with
  | wheel delta k =>
    simp only [formInput, sendSome_eq, ← sendAll_append, Port.input, Port.formed, withPort_port, List.append_assoc]
    rfl
  | strip | pedal =>
    refine Eq.trans ?_ absolute
    unfold formInput
    dsimp only
    rw [updatePort_eq s, withPort_self]
    rfl

/-- A port in ENABLED once a report has been judged, before input is formed from it (R105). -/
def Port.judged (q : Port) (d : DataReport) : Port :=
  let x := (q.noteReport d).mapInput q d
  if q.isActive d then { x with idle := 0, idleSent := false } else x.moreIdle.judgeIdle

/-- A report taken in ATTACHED. -/
theorem takeData_attached (h : s.ports[p].state ≠ .enabled) :
    takeData d p s = s.withPort p (s.ports[p].noteReport d) := if_neg h

/-- What a report makes of a port in ENABLED. -/
def Port.reported (q : Port) (d : DataReport) (t : Int) : Port :=
  if q.drive = .holding then (q.judged d).formed d t else q.judged d

/-- What a port in ENABLED sends at a report. -/
def Port.sends (q : Port) (d : DataReport) (t : Int) : List PortMsg :=
  (if q.isActive d then [.claim] else []) ++ if q.drive = .holding then (q.judged d).input d t else []

/-- A report taken in ENABLED. -/
theorem takeData_enabled (h : s.ports[p].state = .enabled) : takeData d p s =
    sendAll p (s.ports[p].sends d s.engine.target) (s.withPort p (s.ports[p].reported d s.engine.target)) := by
  have judged : (if s.ports[p].isActive d then
        sendArbiter p .claim (updatePort p (fun q => { q with idle := 0, idleSent := false })
          (updatePort p (·.mapInput s.ports[p] d) (updatePort p (·.noteReport d) s)))
      else updatePort p (fun q => q.moreIdle.judgeIdle)
        (updatePort p (·.mapInput s.ports[p] d) (updatePort p (·.noteReport d) s))) =
      sendAll p (if s.ports[p].isActive d then [.claim] else []) (s.withPort p (s.ports[p].judged d)) := by
    rw [updatePort_eq s, updatePort_withPort, Port.judged]
    split <;> rw [updatePort_withPort] <;> rfl
  unfold takeData
  dsimp only
  rw [if_pos h, judged, Port.sends, Port.reported]
  split
  · rw [formInput_eq, sendAll_append]
    simp only [sendAll_ports, sendAll_engine, withPort_self, State.withPort_engine, sendAll_withPort, withPort_twice]
  · rw [List.append_nil]

end data
end Sys2Proof.Machine

namespace Sys2Proof.Machine

/-! ### The facts of one port, operation by operation (R96, R98 to R100) -/

section port
variable {q x : Port}

/-- What the facts of a port go by. -/
def Port.facts (q : Port) :
    PortState × Option FaultCause × Option Kind × Bool × Option Nat × Nat × Nat × Nat :=
  (q.state, q.fault, q.kind, q.supply, q.holdOff, q.silence, q.acquired, q.idle)

theorem PortInv.of_facts (h : PortInv q) (e : x.facts = q.facts := by rfl) : PortInv x := by
  simp only [Port.facts, Prod.mk.injEq] at e
  obtain ⟨hstate, hfault, hkind, hsupply, hholdOff, hsilence, hacquired, hidle⟩ := e
  constructor
  · rw [hstate, hfault]; exact h.fault
  · rw [hstate, hsupply]; exact h.powered
  · rw [hstate, hsupply, hkind]; exact h.detached
  · rw [hstate, hkind]; exact h.kind
  · rw [hstate, hholdOff]; exact h.holdOff
  · rw [hsilence]; exact h.silence
  · rw [hacquired]; exact h.acquired
  · rw [hidle]; exact h.idle

@[simp] theorem Port.relamp_facts : q.relamp.facts = q.facts := by
  unfold Port.relamp; dsimp only; split <;> rfl

@[simp] theorem Port.setFlag_facts (f : ChangeFlag) : (q.setFlag f).facts = q.facts := by cases f <;> rfl

/-- Only a polling port's hold-off cannot run, and it has no fault (R96, R103). -/
theorem PortInv.polling (h : PortInv q) (hp : q.state.polls = true) :
    q.state ≠ .detached ∧ q.fault = none ∧ q.holdOff = none := by
  have hd : q.state ≠ .detached := fun e => by simp [e, PortState.polls] at hp
  have hf : q.state ≠ .faulted := fun e => by simp [e, PortState.polls] at hp
  refine ⟨hd, ?_, ?_⟩
  · simpa using mt h.fault.2 hf
  · simpa using mt h.holdOff hd

theorem Port.polls_of_silenceDue (h : q.silenceDue = true) : q.state.polls = true := by
  unfold Port.silenceDue at h
  split at h
  · next e => rw [e]; rfl
  · next e => rw [e]; rfl
  · next e => rw [e]; rfl
  all_goals cases h

/-- A port that goes from one polling state to another with what it knows. -/
theorem PortInv.polls (h : PortInv q) (hp : q.state.polls = true) (hx : x.state.polls = true)
    (hfault : x.fault = q.fault := by rfl) (hsupply : x.supply = q.supply := by rfl)
    (hholdOff : x.holdOff = q.holdOff := by rfl) (hkind : x.kind.isSome = true)
    (hsilence : x.silence ≤ 10) (hacquired : x.acquired ≤ 8) (hidle : x.idle ≤ 1000) : PortInv x := by
  obtain ⟨-, hqf, hqh⟩ := h.polling hp
  refine ⟨?_, fun _ => hsupply ▸ h.powered hp, fun e => ?_, fun _ => hkind, fun e => ?_, hsilence, hacquired, hidle⟩
  · simp only [hfault, hqf, Option.isSome_none, Bool.false_eq_true, iff_false]
    intro e; simp [e, PortState.polls] at hx
  · simp [e, PortState.polls] at hx
  · simp [hholdOff, hqh] at e

/-- Counting a poll on keeps the state and all that goes with it. -/
theorem PortInv.count (h : PortInv q) (hstate : x.state = q.state := by rfl) (hfault : x.fault = q.fault := by rfl)
    (hkind : x.kind = q.kind := by rfl) (hsupply : x.supply = q.supply := by rfl)
    (hholdOff : x.holdOff = q.holdOff := by rfl) (hsilence : x.silence ≤ 10) (hacquired : x.acquired ≤ 8)
    (hidle : x.idle ≤ 1000) : PortInv x := by
  refine PortInv.of_facts (q := { q with silence := x.silence, acquired := x.acquired, idle := x.idle }) ?_ ?_
  · exact ⟨h.fault, h.powered, h.detached, h.kind, h.holdOff, hsilence, hacquired, hidle⟩
  · simp [Port.facts, hstate, hfault, hkind, hsupply, hholdOff]

theorem PortInv.moreIdle (h : PortInv q) : PortInv q.moreIdle := by
  unfold Port.moreIdle
  split
  · exact h
  · exact h.count (hsilence := h.silence) (hacquired := h.acquired) (hidle := Nat.min_le_right _ _)

theorem PortInv.judgeIdle (h : PortInv q) : PortInv q.judgeIdle := h.of_facts

theorem PortInv.closePoll (h : PortInv q) : PortInv q.closePoll := by
  rw [Port.closePoll_eq]
  refine h.count (hsilence := ?_) (hacquired := h.acquired) (hidle := ?_)
  · have := h.silence
    dsimp only; split <;> omega
  · have := h.idle
    dsimp only; split <;> omega

theorem PortInv.poll (h : PortInv q) (now : Nat) : PortInv (q.poll now) := by
  unfold Port.poll
  dsimp only
  split <;> exact h.closePoll.of_facts

/-- Presence found (R98). -/
theorem PortInv.identify (h : PortInv q) (hd : q.state = .detached) (hh : q.holdOff = none) (now : Nat) :
    PortInv (sendPoll now { q with state := .identifying, supply := true, silence := 0, watchFrom := now }) := by
  have hf : q.fault = none := by simpa [hd] using mt h.fault.2 (by simp [hd])
  exact {
    fault := by simp [sendPoll, hf]
    powered := fun _ => rfl
    detached := nofun
    kind := by simp [sendPoll]
    holdOff := by simp [sendPoll, hh]
    silence := Nat.zero_le _
    acquired := h.acquired
    idle := h.idle }

/-- Nothing known of the control (R98, R103). -/
theorem PortInv.detach (h : PortInv q) (now : Nat) : PortInv (q.detach now) where
  fault := by simp [Port.detach]
  powered := by simp [Port.detach, PortState.polls]
  detached _ := ⟨rfl, rfl⟩
  kind := by simp [Port.detach]
  holdOff _ := rfl
  silence := h.silence
  acquired := Nat.zero_le _
  idle := h.idle

theorem PortInv.disconnect (h : PortInv q) (now : Nat) : PortInv (q.disconnect now) :=
  { h.detach now with holdOff := fun _ => rfl }

theorem PortInv.scopeReset (h : PortInv q) (all : Bool) (now : Nat) : PortInv (q.scopeReset all now) :=
  (h.disconnect now).of_facts Port.relamp_facts

/-- A fault, at a port that is not DETACHED (R99, R100). -/
theorem PortInv.faulted (h : PortInv q) (hd : q.state ≠ .detached) (c : FaultCause) :
    PortInv { q with state := .faulted, fault := some c, releaseDue := false } where
  fault := by simp
  powered := by simp [PortState.polls]
  detached := nofun
  kind := by simp
  holdOff e := absurd (h.holdOff e) hd
  silence := h.silence
  acquired := h.acquired
  idle := h.idle

/-! Hello and data reports -/

theorem PortInv.greeted (h : PortInv q) (hp : q.state.polls = true) (k : Kind) : PortInv (q.greeted k) :=
  h.polls hp hp (hkind := rfl) (hsilence := Nat.zero_le _) (hacquired := Nat.zero_le _) (hidle := h.idle)

theorem PortInv.entered (h : PortInv q) (hp : q.state.polls = true) (hk : q.kind.isSome = true) : PortInv q.entered :=
  h.polls hp rfl (hkind := hk) (hsilence := h.silence) (hacquired := h.acquired) (hidle := Nat.zero_le _)

theorem PortInv.attach (h : PortInv q) (hp : q.state.polls = true) (hk : q.kind.isSome = true) :
    PortInv { q with state := .attached } :=
  h.polls hp rfl (hkind := hk) (hsilence := h.silence) (hacquired := h.acquired) (hidle := h.idle)

theorem PortInv.restarted (h : PortInv q) (hp : q.state.polls = true) (k : Kind) : PortInv (q.restarted k) := by
  have hg : PortInv (q.greeted k).repicked := by
    unfold Port.repicked
    split
    · exact (h.greeted hp k).of_facts Port.relamp_facts
    · exact h.greeted hp k
  unfold Port.restarted
  split
  · exact hg.moreIdle.judgeIdle
  · exact hg

theorem PortInv.trackStrip (h : PortInv q) (counts : Vector Nat 5) : PortInv (q.trackStrip counts) := by
  unfold Port.trackStrip
  split
  · next ha => exact h.count (hsilence := h.silence) (hacquired := ha) (hidle := h.idle)
  · split
    · exact h
    · exact h.of_facts

theorem PortInv.noteReport (h : PortInv q) (d : DataReport) : PortInv (q.noteReport d) := by
  have answers {x : Port} (hx : PortInv x) : PortInv { x with silence := 0, answered := true } :=
    hx.count (hsilence := Nat.zero_le _) (hacquired := hx.acquired) (hidle := hx.idle)
  cases d with
  | strip counts k => exact answers (h.trackStrip counts)
  | wheel | pedal => exact answers h

theorem PortInv.judged (h : PortInv q) (d : DataReport) : PortInv (q.judged d) := by
  have hm : PortInv ((q.noteReport d).mapInput q d) := (h.noteReport d).of_facts
  unfold Port.judged
  dsimp only
  split
  · exact hm.count (hsilence := hm.silence) (hacquired := hm.acquired) (hidle := Nat.zero_le _)
  · exact hm.moreIdle.judgeIdle

theorem Port.met_facts (t : Int) : (q.met t).facts = q.facts := by
  unfold Port.met
  split
  · exact Port.relamp_facts
  · rfl

theorem PortInv.reported (h : PortInv q) (d : DataReport) (t : Int) : PortInv (q.reported d t) := by
  unfold Port.reported
  split
  · cases d with
    | wheel => exact h.judged _
    | strip | pedal => exact ((h.judged _).of_facts (Port.met_facts t)).of_facts
  · exact h.judged d

theorem Port.takeStanding_facts (d : DriveState) (c : PortClass) : (q.takeStanding d c).facts = q.facts := by
  unfold Port.takeStanding
  dsimp only
  rw [Port.relamp_facts]
  split <;> rfl

theorem Port.finishAck_facts : q.finishAck.facts = q.facts := by
  unfold Port.finishAck
  split <;> rfl

theorem Port.withKindPart_facts (part : KindPart) (c : CommonSettings) :
    { q.withKindPart part with common := c }.facts = q.facts := by
  cases part <;> rfl

end port

/-! ### Every command keeps the facts of the ports -/

/-- The facts of every port. -/
def PortsInv (s : State) : Prop := ∀ p : PortNo, PortInv s.ports[p]

section ports
variable {s t : State} {p : PortNo}

theorem PortsInv.of_ports (h : PortsInv s) (e : t.ports = s.ports := by rfl) : PortsInv t := fun p => by
  rw [e]; exact h p

theorem PortsInv.withPort {q : Port} (h : PortsInv s) (hq : PortInv q) : PortsInv (s.withPort p q) := fun r => by
  by_cases hr : r = p
  · subst hr; rwa [withPort_self]
  · rw [withPort_other _ _ hr]; exact h r

/-- A change of one port. -/
theorem PortsInv.updatePort {f : Port → Port} (h : PortsInv s) (hf : PortInv s.ports[p] → PortInv (f s.ports[p])) :
    PortsInv (updatePort p f s) :=
  h.withPort (hf (h p))

theorem PortsInv.setChange (h : PortsInv s) (f : ChangeFlag) : PortsInv (setChange f p s) := fun r => by
  by_cases hr : r = p
  · subst hr; rw [setChange_port]; exact (h r).of_facts (Port.setFlag_facts f)
  · rw [setChange_port_other _ _ _ hr]; exact h r

theorem PortsInv.sendArbiter (h : PortsInv s) (m : PortMsg) : PortsInv (sendArbiter p m s) := h.of_ports

theorem PortsInv.leaveEnabled (h : PortsInv s) (was : PortState) : PortsInv (leaveEnabled was p s) := by
  unfold Machine.leaveEnabled
  split
  · exact (h.setChange .enable).sendArbiter _
  · exact h

/-- A fault, at a port that keeps its facts as it enters FAULTED. -/
theorem PortsInv.enterFaulted {c : FaultCause} (h : PortsInv (Machine.updatePort p (fun q =>
    { q with state := .faulted, fault := some c, releaseDue := false }) s)) : PortsInv (enterFaulted c p s) :=
  (h.setChange .fault).leaveEnabled _

theorem PortsInv.sendIdle (h : PortsInv s) : PortsInv (sendIdle p s) := by
  unfold Machine.sendIdle
  split
  · exact PortsInv.sendArbiter (h.updatePort fun hp => hp.of_facts) _
  · exact h

theorem PortsInv.silenceFault (h : PortsInv s) : PortsInv (silenceFault p s) := by
  unfold Machine.silenceFault
  split
  · next hs =>
    have hp : s.ports[p].state ≠ .detached := ((h p).polling (Port.polls_of_silenceDue hs)).1
    exact (PortsInv.enterFaulted (h.updatePort fun hq => hq.faulted hp .silent)).of_ports (sendIfIdle_ports _)
  · exact h

theorem PortsInv.portReady (h : PortsInv s) : PortsInv (portReady p s) := h.sendIdle.silenceFault

/-- An event keeps what its work keeps. -/
theorem PortsInv.event {req : Bool} {f : State → State} (h : PortsInv s) (hf : ∀ u, PortsInv u → PortsInv (f u)) :
    PortsInv (event req f s) :=
  (hf (s.withCause req) h.of_ports).of_ports (by simp [Machine.event])

theorem PortsInv.portEvent {f : State → State} (h : PortsInv s) (hf : ∀ u, PortsInv u → PortsInv (f u)) :
    PortsInv (portEvent p f s) :=
  h.event fun _ hu => hf _ hu.portReady

/-- A message to a port. -/
theorem PortsInv.takeHead {α β : Type} {c : List (Msg α)} {want : α → Option β} {x : List (Msg α) → State → Mail}
    {f : β → State → State} (h : PortsInv s) (hf : ∀ a u, PortsInv u → PortsInv (f a u)) :
    PortsInv (takeHead c want (fun r u => u.withMail (x r u)) f s) := by
  unfold Machine.takeHead
  split
  · split
    · exact PortsInv.event h.of_ports (hf _)
    · exact h
  · exact h

/-- A request of the ports. -/
theorem PortsInv.request {meant : Request → Bool} {owner : List Byte → State → Answer} (h : PortsInv s)
    (ho : ∀ {u} b, PortsInv u → PortsInv (owner b u).state) : PortsInv (runRequestIf meant owner s) := by
  obtain hb | ⟨r, hb⟩ := runRequestIf_blocks (ps := []) meant owner s
  · exact h.of_ports (hb.ports (by simp))
  · exact (ho r.body (h.of_ports (t := s.withCause true))).of_ports (hb.ports (by simp))

theorem PortsInv.takeReportFrame (h : PortsInv s) (hp : s.ports[p].state.polls = true) (k : Byte) (b : List Byte) :
    PortsInv (takeReportFrame p k b s) := by
  unfold Machine.takeReportFrame
  dsimp only
  split
  · next k _ =>
    by_cases hi : s.ports[p].state = .identifying
    · rw [takeHello_first k hi]
      split
      · exact (h.withPort (((h p).greeted hp k).entered hp rfl)).sendArbiter _
      · exact h.withPort (((h p).greeted hp k).attach hp rfl)
    · rw [takeHello_again k hi]
      exact h.withPort ((h p).restarted hp k)
  · next d _ =>
    split
    · by_cases he : s.ports[p].state = .enabled
      · rw [takeData_enabled d he]
        exact (h.withPort ((h p).reported d _)).of_ports (sendAll_ports _ _ _)
      · rw [takeData_attached d he]
        exact h.withPort ((h p).noteReport d)
    · exact h
  · exact h

theorem PortsInv.portChars (h : PortsInv s) (cs : List LineChar) : PortsInv (portChars p cs s) := by
  induction cs generalizing s with
  | nil => exact h
  | cons c cs ih =>
    refine ih (s := portChar p s c) ?_
    unfold portChar
    dsimp only
    split
    · next hl =>
      have hr (x : PortRx) : PortsInv (Machine.updatePort p (fun q => { q with rx := x }) s) :=
        h.updatePort PortInv.of_facts
      split
      · refine (hr _).takeReportFrame ?_ _ _
        rw [updatePort_eq, withPort_self]
        simp only [Port.listens, Bool.and_eq_true] at hl
        exact hl.1.1
      · exact hr _
    · exact h

theorem withFour_ports {n : Nat} {f : Fin 4 → Answer} (h : PortsInv s) (hf : ∀ p, PortsInv (f p).state) :
    PortsInv (withFour n s f).state := by
  unfold withFour
  split
  · exact hf _
  · exact h

/-- The requests of the ports (R102, R103, R114 to R116). -/
theorem enablePort_portsInv (b : List Byte) (h : PortsInv s) : PortsInv (enablePort b s).state := by
  refine withFour_ports h fun p => ?_
  split
  · next he =>
    have hp : s.ports[p].state.polls = true := by rw [he]; rfl
    exact PortsInv.sendArbiter (h.updatePort fun hq => hq.entered hp (hq.kind (.inl he))) _
  · exact h

theorem disablePort_portsInv (b : List Byte) (h : PortsInv s) : PortsInv (disablePort b s).state := by
  refine withFour_ports h fun p => ?_
  split
  · next he =>
    have hp : s.ports[p].state.polls = true := by rw [he]; rfl
    exact PortsInv.sendArbiter (h.updatePort fun hq => (hq.attach hp (hq.kind (.inr he))).of_facts) _
  · exact h

theorem resetPort_portsInv (b : List Byte) (h : PortsInv s) : PortsInv (resetPort b s).state := by
  refine withFour_ports h fun p => ?_
  have hd : PortsInv (Machine.updatePort p (·.disconnect s.now) s) := h.updatePort fun hq => hq.disconnect _
  refine PortsInv.leaveEnabled ?_ _
  split
  · exact hd
  · exact hd.setChange .connect

theorem setPort_portsInv (b : List Byte) (h : PortsInv s) : PortsInv (setPort b s).state := by
  refine withFour_ports h fun p => ?_
  split
  · exact h.updatePort fun hq => hq.of_facts
  · split
    · exact h
    · split
      · exact h.updatePort fun hq => hq.of_facts (Port.withKindPart_facts _ _)
      · exact h
  · exact h

theorem setLamp_portsInv (b : List Byte) (h : PortsInv s) : PortsInv (setLamp b s).state := by
  refine withFour_ports h fun p => ?_
  dsimp only
  split
  · exact h.updatePort fun hq => hq.of_facts Port.relamp_facts
  · split
    · exact h.updatePort fun hq => hq.of_facts Port.relamp_facts
    · exact h
  · exact h

theorem queryPort_portsInv (b : List Byte) (h : PortsInv s) : PortsInv (queryPort b s).state := by
  refine withFour_ports h fun p => ?_
  split
  · exact h
  · exact h.updatePort fun hq => hq.of_facts

theorem finishAcks_portsInv (h : PortsInv s) : PortsInv (finishAcks s) := fun p => by
  rw [finishAcks_port]
  exact (h p).of_facts Port.finishAck_facts

/-- Resets (R117, R118). -/
theorem takeReset_portsInv (x : Scope) (h : PortsInv s) : PortsInv (takeReset x s) := by
  have hf : (finishCueWork s).ports = s.ports := blocks_finishCueWork.ports (by decide)
  have hr : PortsInv (resetBlocks x (finishCueWork s)) := fun p => by
    rw [resetBlocks_eq]
    dsimp only
    rw [hf]
    split
    · rw [Fin.getElem_fin, Vector.getElem_map]
      exact (h p).scopeReset _ _
    · exact h p
  exact hr.of_ports ((SameBlocks.ite (blocks_withLink _) ((blocks_withLink _).trans blocks_transmitNext)).ports
    (ps := []) (by simp))

/-- Every command keeps the facts of the ports. -/
theorem exec_portsInv (c : Instr) (h : PortsInv s) : Ends (exec c s) PortsInv := by
  by_cases hc : .ports ∉ touches c
  · have hb := exec_blocks c (s := s)
    cases ho : exec c s with
    | next t => exact h.of_ports ((hb.next ho).ports hc)
    | fault | refused => rw [ho] at hb; exact hb
  cases c with
  | powerOnReset a b => exact fun p => powerOn_port (rateOf a b) p ▸ reset_portInv _
  | resetTakesEffect =>
    show PortsInv _
    split
    · split
      · exact h.event fun _ => takeReset_portsInv _
      · exact h
    · exact h
  | enablePort => exact h.request enablePort_portsInv
  | disablePort => exact h.request disablePort_portsInv
  | resetPort => exact h.request resetPort_portsInv
  | setPort => exact h.request setPort_portsInv
  | setLamp => exact h.request setLamp_portsInv
  | queryPort =>
    show PortsInv (ite _ _ _)
    split
    · exact h.event fun _ => finishAcks_portsInv
    · exact h.request queryPort_portsInv
  | standingReport p =>
    exact h.takeHead fun x _ hu => hu.portReady.updatePort fun hq => hq.of_facts (Port.takeStanding_facts _ _)
  | lampFlash p => exact h.takeHead fun _ _ hu => hu.portReady.updatePort fun hq => hq.of_facts Port.relamp_facts
  | lampFlashEnd p => exact h.takeHead fun _ _ hu => hu.portReady.updatePort fun hq => hq.of_facts Port.relamp_facts
  | presenceFound p =>
    refine h.portEvent fun u hu => ?_
    dsimp only
    split
    · next hd => exact (hu.updatePort fun hq => hq.identify hd.1 (by simpa using hd.2.1) _).setChange .connect
    · exact hu
  | presenceLost p =>
    refine h.portEvent fun u hu => ?_
    dsimp only
    split
    · exact ((hu.updatePort fun hq => hq.detach _).setChange .connect).leaveEnabled _
    · exact hu
  | holdOffEnd p =>
    refine h.portEvent fun u hu => ?_
    split
    · split
      · exact hu.updatePort fun hq => { hq with holdOff := nofun }
      · exact hu
    · exact hu
  | overcurrent p =>
    refine h.portEvent fun u hu => ?_
    split
    · next hs =>
      have hd : u.ports[p].state ≠ .detached := fun e => Bool.false_ne_true (((hu p).detached e).1.symm.trans hs)
      refine PortsInv.enterFaulted ?_
      rw [updatePort_eq u, updatePort_withPort]
      refine hu.withPort ?_
      exact { (hu p).faulted hd .supply with powered := nofun, detached := nofun }
    · exact hu
  | poll p =>
    refine h.portEvent fun u hu => ?_
    split
    · exact hu.updatePort fun hq => hq.poll _
    · exact hu
  | silenceFault p => exact h.event fun _ hu => hu.portReady
  | hello p cs => exact h.portEvent fun _ hu => hu.portChars cs
  | dataReport p cs => exact h.portEvent fun _ hu => hu.portChars cs
  | releaseTimeReached p => exact h.event fun _ hu => hu.sendIdle
  | _ => simp [touches] at hc

/-- Settles O17: every command keeps the facts of each port, by what each operation on a port does to what they go by. -/
theorem portsKept : Obligations.PortsKept :=
  kept_of_exec (P := PortsInv) (fun c _ => exec_portsInv c) (fun _ _ h => h.of_ports) fun _ h => h.of_ports

end ports
end Sys2Proof.Machine

namespace Sys2Proof.Machine

/-! ### The events of a port whose last poll is finished -/

section events
variable {s : State} {p : PortNo}

/-- Nothing of the last poll is left, so the event is its own work alone (log 10). -/
theorem portEvent_quiet (h : s.ports[p].quiet = true) (f : State → State) :
    portEvent p f s = sendIfIdle ((f (s.withCause false)).withCause false) := by
  have hr : portReady p (s.withCause false) = s.withCause false := portReady_quiet h
  rw [portEvent, event, hr]

/-- A message that the port takes changes the channel and the port. -/
theorem takeHead_port {α β : Type} {want : α → Option β} {x : List (Msg α) → State → Mail} {f : β → Port → Port}
    {req : Bool} {body : α} {rest : List (Msg α)} {a : β} (h : s.ports[p].quiet = true) (hw : want body = some a) :
    takeHead ({ req := req, body := body } :: rest) want (fun r u => u.withMail (x r u))
      (fun b u => updatePort p (f b) (portReady p u)) s =
    sendIfIdle { s with
      cause := false, mail := x rest s, ports := s.ports.set p.val (f a s.ports[p]) p.isLt } := by
  have hr : portReady p ((s.withMail (x rest s)).withCause req) = (s.withMail (x rest s)).withCause req :=
    portReady_quiet h
  rw [takeHead_some hw, event, hr]
  rfl

end events

/-! ### Standing and flash (R111 to R113, R121) -/

/-- What a strip or a pedal with a tolerance waits for, others have (R99, R111; log 26). -/
theorem Port.freshPickup_eq (q : Port) : q.freshPickup =
    if (q.kind = some .strip ∨ q.kind = some .pedal) ∧ 0 < q.common.tolerance then .waiting else .pickedUp := by
  unfold Port.freshPickup
  split
  · next h => simp [h]
  · next h => simp [h]
  · next h => simp [h]
  · next h => simp [h]

theorem Port.takeStanding_eq (q : Port) (d : DriveState) (c : PortClass) : q.takeStanding d c =
    ({ q with
      drive := d, cls := c
      lastSent := if d = .holding ∧ q.drive ≠ .holding then none else q.lastSent
      pickup := if d = .holding ∧ q.drive ≠ .holding then
          (if (q.kind = some .strip ∨ q.kind = some .pedal) ∧ 0 < q.common.tolerance then .waiting else .pickedUp)
        else q.pickup } : Port).relamp := by
  unfold Port.takeStanding
  rw [← Port.freshPickup_eq]
  by_cases hg : d = .holding ∧ q.drive ≠ .holding
  · simp only [if_pos hg, if_pos hg.symm]
  · simp only [if_neg hg, if_neg (mt And.symm hg)]

/-- Settles O55: each message changes its channel and the one port, whose lamp finds its pattern again. -/
theorem standingAndFlash : Obligations.StandingAndFlash := by
  intro s p req hq
  have flash (on : Bool) (rest : List (Msg Bool)) (hm : s.mail.flash[p] = { req := req, body := on } :: rest) :
      takeFlashIf on p s = sendIfIdle { s with
        cause := false
        mail := { s.mail with flash := s.mail.flash.set p.val rest p.isLt }
        ports := s.ports.set p.val ({ s.ports[p] with flash := on } : Port).relamp p.isLt } := by
    rw [takeFlashIf, hm]
    exact takeHead_port hq (if_pos rfl)
  refine ⟨fun d c rest hm => ?_, fun rest hm => ?_, fun rest hm => ?_⟩
  · have h : execStandingReport p s = .next (sendIfIdle { s with
        cause := false
        mail := { s.mail with standing := s.mail.standing.set p.val rest p.isLt }
        ports := s.ports.set p.val (s.ports[p].takeStanding d c) p.isLt }) := by
      rw [execStandingReport, hm]
      exact congrArg _ (takeHead_port hq rfl)
    refine h.trans ?_
    rw [Port.takeStanding_eq, Port.relamp_eq]
  · refine (congrArg Host.Outcome.next (flash true rest hm)).trans ?_
    rw [Port.relamp_eq]
  · refine (congrArg Host.Outcome.next (flash false rest hm)).trans ?_
    rw [Port.relamp_eq]

end Sys2Proof.Machine

namespace Sys2Proof.Machine

/-! ### What a port does by itself (R97 to R100, R103, R105, R112) -/

section time
variable {s : State} {p : PortNo}

/-- The outcome of a port's event, by what its work makes of the part. -/
theorem portEvent_next {f : State → State} {u : State} (h : s.ports[p].quiet = true) (hf : f (s.withCause false) = u) :
    ran (portEvent p f s) = .next (sendIfIdle (u.withCause false)) := by
  rw [portEvent_quiet h, hf]; rfl

/-- Leaving ENABLED, in the words of the statements (R98, R100, R103, R104). -/
theorem leaveEnabled_eq (was : PortState) : leaveEnabled was p s =
    (if was = .enabled then fun v => sendArbiter p .gone (setChange .enable p v) else id) s := by
  unfold leaveEnabled
  split <;> rfl

/-- A fault at a port: its flag, and what leaving ENABLED brings (R99, R100). -/
theorem enterFaulted_eq (c : FaultCause) : enterFaulted c p s =
    (if s.ports[p].state = .enabled then fun v => sendArbiter p .gone (setChange .enable p v) else id)
      (setChange .fault p (s.withPort p
        { s.ports[p] with state := .faulted, fault := some c, releaseDue := false })) :=
  leaveEnabled_eq _

theorem attaching_claim : Claims.Attaching := by
  intro s p hq
  refine ⟨fun hd hh hw => ?_, fun hd hw => ?_, fun t ht => ?_, fun hs => ?_, fun hs => ?_⟩
  · exact ⟨_, portEvent_next hq (if_pos ⟨hd, Option.isNone_iff_eq_none.2 hh, decide_eq_true hw⟩),
      rfl, rfl, rfl, rfl, rfl, rfl, rfl, rfl, rfl⟩
  · refine ⟨_, portEvent_next hq ((if_pos ⟨hd, decide_eq_true hw⟩).trans (leaveEnabled_eq _)), ?_⟩
    exact ⟨rfl, rfl, rfl, rfl, rfl, rfl, rfl, rfl, rfl, rfl, rfl, rfl, rfl, rfl, rfl, rfl, rfl⟩
  · refine portEvent_next hq ?_
    change (match s.ports[p].holdOff with | some t => _ | none => _) = _
    rw [show s.ports[p].holdOff = some t from ht]
    rfl
  · refine portEvent_next hq ((if_pos hs).trans ?_)
    rw [enterFaulted_eq, updatePort_eq, withPort_self, withPort_twice]
    rfl
  · exact portEvent_next (u := s.withCause false) hq (if_neg (Bool.eq_false_iff.1 hs))

/-- A Poll is due, or it is not (R97). -/
theorem pollDue_iff {q : Port} {now : Nat} : q.pollDue now = true ↔ q.state.polls = true ∧ q.nextPoll ≤ now := by
  simp [Port.pollDue]

/-- The limit of the silence count, at a port that polls (R99, R100). -/
theorem silenceDue_iff {q : Port} (h : q.state.polls = true) :
    q.silenceDue = true ↔ (if q.state = .identifying then 10 else 5) ≤ q.silence := by
  unfold Port.silenceDue
  cases hs : q.state with
  | identifying => simp
  | attached | enabled => simp
  | detached | faulted => simp [hs, PortState.polls] at h

/-- A closed poll whose silence count stays under its limit is followed by the next one. -/
theorem poll_claim : Claims.Poll := by
  intro s p hq
  refine ⟨fun hp hn => ?_, fun hn => portEvent_next (u := s.withCause false) hq (if_neg fun hd => ?_)⟩
  · refine ⟨s.ports[p].poll s.now, portEvent_next (u := (s.withCause false).withPort p _) hq (if_pos (pollDue_iff.2 ⟨hp, hn⟩)), ?_⟩
    generalize s.ports[p] = q at *
    have hc := q.closePoll_eq
    have hs := silenceDue_iff (q := q.closePoll) (by rw [hc]; exact hp)
    by_cases hd : q.closePoll.silenceDue = true
    · have hle := hs.1 hd
      rw [Port.poll, if_pos hd]
      rw [hc] at hle ⊢
      exact ⟨rfl, rfl, rfl, decide_eq_true_iff, fun hlt => absurd hle (Nat.not_le.2 hlt), fun _ => ⟨rfl, rfl⟩⟩
    · have hlt := Nat.not_le.1 (mt hs.2 hd)
      rw [Port.poll, if_neg hd]
      rw [hc] at hlt ⊢
      exact ⟨rfl, rfl, rfl, decide_eq_true_iff, fun _ => ⟨rfl, rfl, rfl, rfl⟩, fun hle => absurd hle (Nat.not_le.2 hlt)⟩
  · obtain ⟨hp, hle⟩ := pollDue_iff.1 hd
    rcases hn with hn | hn
    · exact Bool.false_ne_true (hn.symm.trans hp)
    · exact absurd hle (Nat.not_le.2 hn)

theorem sendIdle_none (h : s.ports[p].releaseDue = false) : sendIdle p s = s := if_neg (Bool.eq_false_iff.1 h)

/-- With no Idle left, the fault SILENT is the event's whole work (log 22). -/
theorem exec_silenceFault {u : State} (hr : s.ports[p].releaseDue = false)
    (hu : silenceFault p (s.withCause false) = u) :
    exec (.silenceFault p) s = .next (sendIfIdle (u.withCause false)) := by
  have hi : sendIdle p (s.withCause false) = s.withCause false := sendIdle_none hr
  have he : exec (.silenceFault p) s =
    .next (sendIfIdle ((silenceFault p (sendIdle p (s.withCause false))).withCause false)) := rfl
  rw [he, hi, hu]

theorem afterAPoll_claim : Claims.AfterAPoll := by
  intro s p
  have idle {u : State} (h : sendIdle p (s.withCause false) = u) :
      exec (.releaseTimeReached p) s = .next (sendIfIdle (u.withCause false)) := by rw [← h]; rfl
  refine ⟨fun hr => idle (if_pos hr), fun hr => idle (u := s.withCause false) (sendIdle_none hr), fun hr hs => ?_,
    fun hr hs => exec_silenceFault (u := s.withCause false) hr (if_neg (Bool.eq_false_iff.1 hs))⟩
  have hd : s.ports[p].silenceDue = true := by
    rcases hs with ⟨hi, hn⟩ | ⟨he, hn⟩
    · exact (silenceDue_iff (by rw [hi]; rfl)).2 (by rwa [if_pos hi])
    · refine (silenceDue_iff ?_).2 (hn.trans' ?_)
      · rcases he with he | he <;> rw [he] <;> rfl
      · rcases he with he | he <;> rw [he] <;> exact le_rfl
  rw [exec_silenceFault hr ((if_pos hd).trans (congrArg sendIfIdle (enterFaulted_eq _))), ← sendIfIdle_withCause,
    sendIfIdle_twice]
  rfl

/-- Settles O53. -/
theorem portTime : Obligations.PortTime := ⟨attaching_claim, poll_claim, afterAPoll_claim⟩

end time
end Sys2Proof.Machine

namespace Sys2Proof.Machine

/-! ### The requests of the ports (R102, R103, R114 to R116) -/

section fields
variable {n : Nat} {p : PortNo}

theorem withFour_port (h : n = p.val) (s : State) (f : PortNo → Answer) : withFour n s f = f p := by
  subst h
  exact dif_pos p.isLt

theorem withFour_range (h : 4 ≤ n) (s : State) (f : PortNo → Answer) : withFour n s f = refuse .range s :=
  dif_neg (Nat.not_lt.2 h)

/-- The port field as a port number. -/
theorem port_of_field (h : ¬ 4 ≤ n) : ∃ p : PortNo, n = p.val := ⟨⟨n, Nat.not_le.1 h⟩, rfl⟩

theorem WheelStyle.ofCode_eq : WheelStyle.ofCode n = if n ≤ 1 then some (if n = 0 then .speed else .jog) else none :=
  match n with
  | 0 => rfl
  | 1 => rfl
  | k + 2 => (if_neg (by omega)).symm

theorem StripStyle.ofCode_eq : StripStyle.ofCode n = if n ≤ 1 then some (if n = 0 then .hold else .zero) else none :=
  match n with
  | 0 => rfl
  | 1 => rfl
  | k + 2 => (if_neg (by omega)).symm

end fields

section requests
variable {s : State} {p : PortNo}

/-! Enable Port, Disable Port, Reset Port -/

theorem setChange_requests (f : ChangeFlag) : (setChange f p s).link.requests = s.link.requests := by
  unfold setChange
  dsimp only
  split
  · rfl
  · exact LinkController.raise_requests _ _

theorem setChange_replies (f : ChangeFlag) : (setChange f p s).link.replies = s.link.replies := by
  unfold setChange
  dsimp only
  split
  · rfl
  · exact LinkController.raise_replies _ _

theorem leaveEnabled_requests (was : PortState) : (leaveEnabled was p s).link.requests = s.link.requests := by
  unfold leaveEnabled
  split
  · exact setChange_requests _
  · rfl

theorem leaveEnabled_replies (was : PortState) : (leaveEnabled was p s).link.replies = s.link.replies := by
  unfold leaveEnabled
  split
  · exact setChange_replies _
  · rfl

theorem portStateRequests_claim : Claims.PortStateRequests := by
  intro s b
  refine ⟨fun hb => ⟨fun h => ?_, fun h => ?_, fun h => ?_⟩, fun p hp => ⟨fun h => ?_, fun h => ?_, fun h => ?_⟩⟩
  · exact congrArg Host.Outcome.next (runRequest_refused h rfl (withFour_range hb _ _))
  · exact congrArg Host.Outcome.next (runRequest_refused h rfl (withFour_range hb _ _))
  · exact congrArg Host.Outcome.next (runRequest_refused h rfl (withFour_range hb _ _))
  · refine ⟨fun hs => ?_, fun hs => ?_⟩
    · exact congrArg Host.Outcome.next (runRequest_refused h rfl ((withFour_port hp _ _).trans (if_neg hs)))
    · exact congrArg Host.Outcome.next (runRequest_done h rfl ((withFour_port hp _ _).trans (if_pos hs)) rfl rfl)
  · refine ⟨fun hs => ?_, fun hs => ?_⟩
    · exact congrArg Host.Outcome.next (runRequest_refused h rfl ((withFour_port hp _ _).trans (if_neg hs)))
    · exact congrArg Host.Outcome.next (runRequest_done h rfl ((withFour_port hp _ _).trans (if_pos hs)) rfl rfl)
  · refine ⟨s.ports[p].disconnect s.now, ?_,
      rfl, rfl, rfl, rfl, rfl, rfl, rfl, rfl, rfl, rfl, rfl, rfl, rfl, rfl, rfl, rfl, rfl, rfl⟩
    have hc (v : State) : (if s.ports[p].state = .detached then id else setChange .connect p) v =
        if s.ports[p].state = .detached then v else setChange .connect p v := by split <;> rfl
    rw [← leaveEnabled_eq, hc]
    refine congrArg Host.Outcome.next (runRequest_answered h rfl (withFour_port hp _ _) (done_plain _ _) ?_ ?_)
    · refine (leaveEnabled_requests _).trans ?_
      split
      · rfl
      · exact setChange_requests _
    · refine (leaveEnabled_replies _).trans ?_
      split
      · rfl
      · exact setChange_replies _

/-! Set Port -/

theorem parseCommon_eq (body : List Byte) : parseCommon body =
    if u8 body 1 ≤ 1 ∧ 10 ≤ u16 body 2 ∧ u16 body 2 ≤ 1000 ∧ u8 body 4 ≤ 64 then
      some { autoEnable := u8 body 1 = 1, releaseTime := u16 body 2, tolerance := u8 body 4 } else none := by
  unfold parseCommon
  by_cases h : u8 body 1 ≤ 1
  · simp only [flagOf_le h, h, true_and]
  · simp only [flagOf_gt (Nat.not_le.1 h), h, false_and, if_false]

/-- The kind part by its tag (R115). -/
theorem parseKindPart_eq (body : List Byte) : parseKindPart body =
    if u8 body 5 = 0 then some none
    else if u8 body 5 = 1 then
      if u8 body 6 ≤ 1 ∧ 1 ≤ u8 body 7 ∧ u8 body 7 ≤ 64 ∧ 1 ≤ u16 body 8 ∧ u16 body 8 ≤ 256 then
        some (some (.wheel { style := if u8 body 6 = 0 then .speed else .jog, speedStep := u8 body 7
                             jogSize := u16 body 8 }))
      else none
    else if u8 body 5 = 2 then
      if u8 body 6 ≤ 1 ∧ 16 ≤ u16 body 7 ∧ u16 body 7 ≤ 1023 ∧ 1 ≤ u8 body 9 ∧ u8 body 9 ≤ 64 then
        some (some (.strip { style := if u8 body 6 = 0 then .hold else .zero, threshold := u16 body 7
                             gain := u8 body 9 }))
      else none
    else if u8 body 5 = 3 then
      if u8 body 6 ≤ 64 ∧ 1 ≤ u8 body 7 ∧ u8 body 7 ≤ 64 then
        some (some (.pedal { deadBand := u8 body 6, gain := u8 body 7 }))
      else none
    else none := by
  unfold parseKindPart
  split
  · next h => rw [if_pos h]
  · next h =>
    rw [if_neg (by omega), if_pos h, WheelStyle.ofCode_eq]
    by_cases hs : u8 body 6 ≤ 1
    · simp only [hs, if_true, true_and]
    · simp only [hs, if_false, false_and]
  · next h =>
    rw [if_neg (by omega), if_neg (by omega), if_pos h, StripStyle.ofCode_eq]
    by_cases hs : u8 body 6 ≤ 1
    · simp only [hs, if_true, true_and]
    · simp only [hs, if_false, false_and]
  · next h => simp [h]
  · next h0 h1 h2 h3 => rw [if_neg h0, if_neg h1, if_neg h2, if_neg h3]

theorem setPort_refused {body : List Byte} (h : Serving s 0x4B body) (hp : u8 body 0 = p.val)
    (hb : parseCommon body = none ∨ parseKindPart body = none) : exec .setPort s = .next (refused s .range) := by
  refine congrArg Host.Outcome.next (runRequest_refused h rfl ((withFour_port hp _ _).trans ?_))
  rcases hb with hb | hb
  · rw [hb]
  · rw [hb]
    split <;> simp_all

theorem setPort_common {body : List Byte} {c : CommonSettings} (h : Serving s 0x4B body) (hp : u8 body 0 = p.val)
    (hc : parseCommon body = some c) (hk : parseKindPart body = some none) :
    exec .setPort s = .next (answered s .done [] (s.withPort p { s.ports[p] with common := c })) := by
  refine congrArg Host.Outcome.next (runRequest_done h rfl ((withFour_port hp _ _).trans ?_) rfl rfl)
  rw [hc, hk]
  rfl

/-- A part given: the port's kind decides (R115). -/
theorem setPort_part {body : List Byte} {c : CommonSettings} {part : KindPart} (h : Serving s 0x4B body)
    (hp : u8 body 0 = p.val) (hc : parseCommon body = some c) (hk : parseKindPart body = some (some part)) :
    (s.ports[p].kind = none → exec .setPort s = .next (refused s .state)) ∧
    (∀ k, s.ports[p].kind = some k → k ≠ part.kind → exec .setPort s = .next (refused s .range)) ∧
    (s.ports[p].kind = some part.kind → exec .setPort s = .next (answered s .done []
      (s.withPort p { s.ports[p].withKindPart part with common := c }))) := by
  refine ⟨fun hn => ?_, fun k hn hne => ?_, fun hn => ?_⟩
  · refine congrArg Host.Outcome.next (runRequest_refused h rfl ((withFour_port hp _ _).trans ?_))
    simp only [hc, hk, State.withCause_ports, hn]
  · refine congrArg Host.Outcome.next (runRequest_refused h rfl ((withFour_port hp _ _).trans ?_))
    simp only [hc, hk, State.withCause_ports, hn, if_neg hne]
  · refine congrArg Host.Outcome.next (runRequest_done h rfl ((withFour_port hp _ _).trans ?_) rfl rfl)
    simp only [hc, hk, State.withCause_ports, hn, if_true]
    rfl

theorem portRecords_claim : Claims.PortRecords := by
  intro s body h
  refine ⟨fun hb => congrArg Host.Outcome.next (runRequest_refused h rfl (withFour_range hb _ _)), fun p hp => ?_⟩
  dsimp only
  have hc := parseCommon_eq body
  have hk := parseKindPart_eq body
  refine ⟨fun hno => ?_, fun hcm hpt h0 => ?_, fun hcm ht => ?_, fun hcm ht hw hkind => ?_, fun hcm ht hw hkind => ?_,
    fun hcm ht hw hkind => ?_⟩
  · refine setPort_refused h hp ?_
    rw [hc, hk, or_iff_not_imp_left]
    intro hcm
    have hno := not_or.1 fun hpt => hno ⟨Classical.byContradiction fun hn => hcm (if_neg hn), hpt⟩
    obtain ⟨h0, hno⟩ := hno
    obtain ⟨h1, hno⟩ := not_or.1 hno
    obtain ⟨h2, h3⟩ := not_or.1 hno
    rw [if_neg h0]
    split
    · next ht => exact if_neg fun hw => h1 ⟨ht, hw⟩
    · split
      · next ht => exact if_neg fun hw => h2 ⟨ht, hw⟩
      · split
        · next ht => exact if_neg fun hw => h3 ⟨ht, hw⟩
        · rfl
  · have part {x : KindPart} (hx : parseKindPart body = some (some x))
        (hne : ∀ k : Kind, u8 body 5 ≠ (match k with | .wheel => 1 | .strip => 2 | .pedal => 3) → k ≠ x.kind) :
        (s.ports[p].kind = none → exec .setPort s = .next (refused s .state)) ∧
        (∀ k, s.ports[p].kind = some k → u8 body 5 ≠ (match k with | .wheel => 1 | .strip => 2 | .pedal => 3) →
          exec .setPort s = .next (refused s .range)) := by
      obtain ⟨hnone, hother, -⟩ := setPort_part h hp (hc.trans (if_pos hcm)) hx
      exact ⟨hnone, fun k hk hd => hother k hk (hne k hd)⟩
    rcases hpt with ht | ⟨ht, hw⟩ | ⟨ht, hw⟩ | ⟨ht, hw⟩
    · exact absurd ht h0
    · rw [if_neg h0, if_pos ht, if_pos hw] at hk
      exact part hk fun k hd => by rintro rfl; exact hd ht
    · rw [if_neg h0, if_neg (by omega), if_pos ht, if_pos hw] at hk
      exact part hk fun k hd => by rintro rfl; exact hd ht
    · rw [if_neg h0, if_neg (by omega), if_neg (by omega), if_pos ht, if_pos hw] at hk
      exact part hk fun k hd => by rintro rfl; exact hd ht
  · exact setPort_common h hp (hc.trans (if_pos hcm)) (hk.trans (if_pos ht))
  · rw [if_neg (by omega), if_pos ht, if_pos hw] at hk
    exact (setPort_part h hp (hc.trans (if_pos hcm)) hk).2.2 hkind
  · rw [if_neg (by omega), if_neg (by omega), if_pos ht, if_pos hw] at hk
    exact (setPort_part h hp (hc.trans (if_pos hcm)) hk).2.2 hkind
  · rw [if_neg (by omega), if_neg (by omega), if_neg (by omega), if_pos ht, if_pos hw] at hk
    exact (setPort_part h hp (hc.trans (if_pos hcm)) hk).2.2 hkind

/-! Set Lamp -/

theorem portLamp_claim : Claims.PortLamp := by
  intro s body h
  refine ⟨fun hr => ?_, fun p hp => ⟨fun h0 => ?_, fun h1 hon hoff => ?_⟩⟩
  · refine congrArg Host.Outcome.next (runRequest_refused h rfl ?_)
    by_cases hb : 4 ≤ u8 body 0
    · exact withFour_range hb _ _
    obtain ⟨p, hp⟩ := port_of_field hb
    refine (withFour_port hp _ _).trans ?_
    dsimp only
    split
    · omega
    · exact if_neg (by omega)
    · rfl
  · refine congrArg Host.Outcome.next (runRequest_done h rfl ((withFour_port hp _ _).trans ?_) rfl rfl)
    rw [h0]
    exact congrArg (fun x => done [] ((s.withPort p x).withCause true)) (Port.relamp_eq _)
  · refine congrArg Host.Outcome.next (runRequest_done h rfl ((withFour_port hp _ _).trans ?_) rfl rfl)
    rw [h1]
    exact (if_pos ⟨hon, hoff⟩).trans (congrArg (fun x => done [] ((s.withPort p x).withCause true)) (Port.relamp_eq _))

/-! Query Port -/

theorem toList_five {α : Type} (v : Vector α 5) : v.toList = [v[0], v[1], v[2], v[3], v[4]] := by
  obtain ⟨⟨l⟩, hl⟩ := v
  match l, hl with
  | [a, b, c, d, e], _ => rfl

/-- With no clearing left, QUERY_PORT is the head request's (R182). -/
theorem exec_queryPort {t : State} (h : s.canTake = true) (hr : runRequest 0x4D queryPort s = t) :
    exec .queryPort s = .next t :=
  (execQueryPort_request (acknowledging_of_canTake h)).trans (congrArg Host.Outcome.next hr)

theorem portQueried_claim : Claims.PortQueried := by
  intro s
  refine ⟨fun b set h => ⟨fun hr => ?_, fun p hp hset => ?_⟩, fun ha => ?_⟩
  · refine exec_queryPort h.taken (runRequest_refused h rfl ?_)
    by_cases hb : 4 ≤ b.toNat
    · exact withFour_range hb _ _
    · obtain ⟨p, hp⟩ := port_of_field hb
      exact (withFour_port hp _ _).trans (if_pos (hr.resolve_left hb))
  · refine exec_queryPort h.taken (runRequest_done h rfl ((withFour_port hp _ _).trans
      ((if_neg (Nat.not_lt.2 hset)).trans ?_)) rfl rfl)
    unfold portBytes
    rw [toList_five]
    rfl
  · have hack := acknowledging_iff.2 ha
    refine ⟨Bool.eq_false_iff.2 fun hc => ?_, (finishAcks (s.withCause true)).withCause false, ?_, fun p => ?_, rfl⟩
    · exact Bool.false_ne_true ((acknowledging_of_canTake hc).symm.trans hack)
    · exact congrArg Host.Outcome.next (if_pos hack)
    · exact (finishAcks_port p).trans rfl

/-- Settles O56. -/
theorem portRequests : Obligations.PortRequests :=
  ⟨portStateRequests_claim, portRecords_claim, portLamp_claim, portQueried_claim⟩

end requests
end Sys2Proof.Machine

namespace Sys2Proof.Machine

/-! ### Characters at a port (R97, R189) -/

section chars
variable {s : State} {p : PortNo}

/-- While the port does not listen nothing is taken (R97; log 19). -/
theorem portChars_deaf (h : s.ports[p].listens s.now = false) (cs : List LineChar) : portChars p cs s = s := by
  induction cs with
  | nil => rfl
  | cons c cs ih =>
    have hc : portChar p s c = s := if_neg (Bool.eq_false_iff.1 h)
    rw [portChars, List.foldl_cons, hc]
    exact ih

/-- The part with the port's receiver in a given state. -/
def State.hearing (s : State) (p : PortNo) (r : PortRx) : State := s.withPort p { s.ports[p] with rx := r }

theorem hearing_self (h : s.ports[p].rx = r) : s.hearing p r = s := by
  subst h
  exact withPort_port s p

/-- A character that completes no frame. -/
theorem portChar_quiet {r r' : PortRx} {c : LineChar} (h : s.ports[p].listens s.now = true)
    (hr : portRxTake r c = (r', none)) : portChar p (s.hearing p r) c = s.hearing p r' := by
  have hl : ((s.hearing p r).ports[p].listens (s.hearing p r).now) = true := by
    rw [State.hearing, withPort_self]; exact h
  have hx : (s.hearing p r).ports[p].rx = r := by rw [State.hearing, withPort_self]
  rw [portChar, if_pos hl, hx, hr]
  simp only [State.hearing, updatePort_withPort]

/-- The character that completes a frame. -/
theorem portChar_frame {r : PortRx} {c : LineChar} {kind : Byte} {body : List Byte}
    (h : s.ports[p].listens s.now = true) (hr : portRxTake r c = (.hunting, some (kind, body))) :
    portChar p (s.hearing p r) c = takeReportFrame p kind body (s.hearing p .hunting) := by
  have hl : ((s.hearing p r).ports[p].listens (s.hearing p r).now) = true := by
    rw [State.hearing, withPort_self]; exact h
  have hx : (s.hearing p r).ports[p].rx = r := by rw [State.hearing, withPort_self]
  rw [portChar, if_pos hl, hx, hr]
  simp only [State.hearing, updatePort_withPort]

theorem portChars_cons (c : LineChar) (cs : List LineChar) :
    portChars p (c :: cs) s = portChars p cs (portChar p s c) := rfl

/-- The body of a frame is collected byte by byte. -/
theorem portChars_body {kind : Byte} {n : Nat} (h : s.ports[p].listens s.now = true) (hk : reportLength kind = some n)
    (rest : List LineChar) : ∀ (bs got : List Byte), got.length + bs.length ≤ n →
    portChars p (goodChars bs ++ rest) (s.hearing p (.body kind got)) =
      portChars p rest (s.hearing p (.body kind (got ++ bs)))
  | [], got, _ => by rw [List.append_nil]; rfl
  | b :: bs, got, hn => by
    rw [List.length_cons] at hn
    have hr : portRxTake (.body kind got) { byte := b, stop := true } = (.body kind (got ++ [b]), none) := by
      simp [portRxTake, hk, show got.length < n by omega]
    have ih := portChars_body h hk rest bs (got ++ [b]) (by rw [List.length_append, List.length_singleton]; omega)
    rw [goodChars, List.map_cons, List.cons_append, portChars_cons, portChar_quiet h hr]
    rw [List.append_assoc] at ih
    exact ih

/-- The start byte and a kind byte. -/
theorem portChars_start {kind : Byte} (h : s.ports[p].listens s.now = true) (hx : s.ports[p].rx = .hunting)
    (rest : List LineChar) : portChars p (goodChars [0xC3, kind] ++ rest) s =
      portChars p rest (s.hearing p (if (reportLength kind).isSome then .body kind [] else .hunting)) := by
  have hr : portRxTake .kind { byte := kind, stop := true } =
      (if (reportLength kind).isSome then .body kind [] else .hunting, none) := by
    unfold portRxTake
    simp only [true_and]
    split <;> rfl
  conv_lhs => rw [← hearing_self hx]
  rw [goodChars, List.map_cons, List.map_cons, List.map_nil, List.cons_append, List.cons_append, List.nil_append,
    portChars_cons, portChars_cons, portChar_quiet h (r' := .kind) rfl, portChar_quiet h hr]

/-- A kind that is no report's ends the frame (R97, R189). -/
theorem portChars_unknown {kind : Byte} (h : s.ports[p].listens s.now = true) (hx : s.ports[p].rx = .hunting)
    (hk : reportLength kind = none) : portChars p (goodChars [0xC3, kind]) s = s := by
  have hs := portChars_start (kind := kind) h hx []
  rw [List.append_nil, hk] at hs
  exact hs.trans (hearing_self hx)

/-- A frame of a report's kind and length is met when its check is right, and discarded when it is not (R189). -/
theorem portChars_frame {kind : Byte} {body : List Byte} (h : s.ports[p].listens s.now = true)
    (hx : s.ports[p].rx = .hunting) (hk : reportLength kind = some body.length) (check : Byte) :
    portChars p (goodChars (0xC3 :: kind :: (body ++ [check]))) s =
      if kind + body.sum + check = 0 then takeReportFrame p kind body s else s := by
  have hg : goodChars (0xC3 :: kind :: (body ++ [check])) =
      goodChars [0xC3, kind] ++ (goodChars body ++ goodChars [check]) := by simp [goodChars]
  have hc : portChars p (goodChars [check]) (s.hearing p (.body kind body)) =
      portChar p (s.hearing p (.body kind body)) { byte := check, stop := true } := rfl
  have hr : portRxTake (.body kind body) { byte := check, stop := true } =
      if kind + body.sum + check = 0 then (.hunting, some (kind, body)) else (.hunting, none) := by
    rw [portRxTake, hk, List.sum_cons]
    exact (if_neg Bool.false_ne_true).trans (if_neg (lt_irrefl _))
  rw [hg, portChars_start h hx, hk, Option.isSome_some, if_pos rfl, portChars_body h hk _ body [] (by simp),
    List.nil_append, hc]
  split
  · next hz => rw [portChar_frame h (hr.trans (if_pos hz)), hearing_self hx]
  · next hz => rw [portChar_quiet h (hr.trans (if_neg hz)), hearing_self hx]

/-- A frame as a control sends it. -/
theorem portChars_portFrame {kind : Byte} {body : List Byte} (h : s.ports[p].listens s.now = true)
    (hx : s.ports[p].rx = .hunting) (hk : reportLength kind = some body.length) :
    portChars p (goodChars (portFrame kind body)) s = takeReportFrame p kind body s :=
  (portChars_frame h hx hk _).trans (if_pos (by simp [List.sum_cons]))

/-- The characters that a listening port meets, as its event (R97). -/
theorem exec_dataReport (hq : s.ports[p].quiet = true) {cs : List LineChar} {u : State}
    (hu : portChars p cs (s.withCause false) = u) :
    exec (.dataReport p cs) s = .next (sendIfIdle (u.withCause false)) := portEvent_next hq hu

theorem exec_hello (hq : s.ports[p].quiet = true) {cs : List LineChar} {u : State}
    (hu : portChars p cs (s.withCause false) = u) :
    exec (.hello p cs) s = .next (sendIfIdle (u.withCause false)) := portEvent_next hq hu

end chars
end Sys2Proof.Machine

namespace Sys2Proof.Machine

/-! ### What a port does not take (R97, R99, R189) -/

section untaken
variable {s : State} {p : PortNo}

theorem ofFrame_hello (body : List Byte) :
    PortReport.ofFrame 0x10 body = (Kind.ofCode (u8 body 0)).map PortReport.hello := rfl

theorem ofFrame_wheel (body : List Byte) :
    PortReport.ofFrame 0x11 body = some (.data (.wheel (s8 body 0) (Keys.ofByte (body.getD 1 0)))) := rfl

theorem ofFrame_pedal (body : List Byte) :
    PortReport.ofFrame 0x13 body = some (.data (.pedal (u8 body 0) (Keys.ofByte (body.getD 1 0)))) := rfl

/-- The counts of a strip's report are 12 bits each (R189). -/
theorem ofFrame_strip (body : List Byte) : PortReport.ofFrame 0x12 body =
    if u16 body 0 ≤ 4095 ∧ u16 body 2 ≤ 4095 ∧ u16 body 4 ≤ 4095 ∧ u16 body 6 ≤ 4095 ∧ u16 body 8 ≤ 4095 then
      some (.data (.strip #v[u16 body 0, u16 body 2, u16 body 4, u16 body 6, u16 body 8]
        { Keys.ofByte (body.getD 10 0) with reverse := false }))
    else none := by
  have h : PortReport.ofFrame 0x12 body =
      if #v[u16 body 0, u16 body 2, u16 body 4, u16 body 6, u16 body 8].all (· ≤ 4095) then
        some (.data (.strip #v[u16 body 0, u16 body 2, u16 body 4, u16 body 6, u16 body 8]
          { Keys.ofByte (body.getD 10 0) with reverse := false }))
      else none := rfl
  rw [h]
  exact if_congr (by simp) rfl rfl

theorem takeReportFrame_none {kind : Byte} {body : List Byte} (h : PortReport.ofFrame kind body = none) :
    takeReportFrame p kind body s = s := by
  rw [takeReportFrame, h]

/-- A report of another kind, or in IDENTIFYING. -/
theorem takeReportFrame_other {kind : Byte} {body : List Byte} {d : DataReport}
    (h : PortReport.ofFrame kind body = some (.data d))
    (hn : ¬((s.ports[p].state = .attached ∨ s.ports[p].state = .enabled) ∧ s.ports[p].kind = some d.kind)) :
    takeReportFrame p kind body s = s := by
  rw [takeReportFrame, h]
  exact if_neg hn

/-- A report of the port's kind. -/
theorem takeReportFrame_data {kind : Byte} {body : List Byte} {d : DataReport}
    (h : PortReport.ofFrame kind body = some (.data d))
    (hs : s.ports[p].state = .attached ∨ s.ports[p].state = .enabled) (hk : s.ports[p].kind = some d.kind) :
    takeReportFrame p kind body s = takeData d p s := by
  rw [takeReportFrame, h]
  exact if_pos ⟨hs, hk⟩

theorem reportLength_unknown {kind : Byte} (h : kind ∉ [(0x10 : Byte), 0x11, 0x12, 0x13]) : reportLength kind = none := by
  simp only [List.mem_cons, List.not_mem_nil, or_false, not_or] at h
  obtain ⟨h0, h1, h2, h3⟩ := h
  rw [reportLength, if_neg h0, if_neg h1, if_neg h2, if_neg h3]

theorem kindOfCode_none {n : Nat} (h : n = 0 ∨ 3 < n) : Kind.ofCode n = none := by
  unfold Kind.ofCode
  split
  · omega
  · omega
  · omega
  · rfl

/-- What comes while the port does not listen (R97; log 19). -/
theorem Port.listens_false {q : Port} {now : Nat}
    (h : q.state = .detached ∨ q.state = .faulted ∨ q.answered = true ∨ q.nextPoll ≤ now) : q.listens now = false := by
  unfold Port.listens
  rcases h with h | h | h | h
  · simp [h, PortState.polls]
  · simp [h, PortState.polls]
  · simp [h]
  · simp [Nat.not_lt.2 h]

theorem reportLength_known {kind : Byte} {n : Nat}
    (h : (kind, n) ∈ [((0x10 : Byte), 1), (0x11, 2), (0x12, 11), (0x13, 2)]) : reportLength kind = some n := by
  simp only [List.mem_cons, Prod.mk.injEq, List.not_mem_nil, or_false] at h
  rcases h with ⟨rfl, rfl⟩ | ⟨rfl, rfl⟩ | ⟨rfl, rfl⟩ | ⟨rfl, rfl⟩ <;> rfl

/-- A whole frame that the port has no use for: no kind, another kind, a count out of range (R97, R189). -/
theorem takeReportFrame_untaken {kind : Byte} {body : List Byte}
    (h : let q := s.ports[p]
      let takes := q.state = .attached ∨ q.state = .enabled
      let counts := [u16 body 0, u16 body 2, u16 body 4, u16 body 6, u16 body 8]
      (kind = 0x10 ∧ (u8 body 0 = 0 ∨ 3 < u8 body 0)) ∨
        (kind = 0x11 ∧ ¬(takes ∧ q.kind = some .wheel)) ∨
        (kind = 0x12 ∧ (¬(takes ∧ q.kind = some .strip) ∨ ∃ n ∈ counts, 4095 < n)) ∨
        (kind = 0x13 ∧ ¬(takes ∧ q.kind = some .pedal))) : takeReportFrame p kind body s = s := by
  rcases h with ⟨rfl, hcode⟩ | ⟨rfl, hn⟩ | ⟨rfl, hstrip⟩ | ⟨rfl, hn⟩
  · exact takeReportFrame_none (by rw [ofFrame_hello, kindOfCode_none hcode]; rfl)
  · exact takeReportFrame_other (ofFrame_wheel body) hn
  · by_cases hc : u16 body 0 ≤ 4095 ∧ u16 body 2 ≤ 4095 ∧ u16 body 4 ≤ 4095 ∧ u16 body 6 ≤ 4095 ∧ u16 body 8 ≤ 4095
    · refine takeReportFrame_other ((ofFrame_strip body).trans (if_pos hc)) (hstrip.resolve_right ?_)
      rintro ⟨n, hn, hbig⟩
      simp only [List.mem_cons, List.not_mem_nil, or_false] at hn
      omega
    · exact takeReportFrame_none ((ofFrame_strip body).trans (if_neg hc))
  · exact takeReportFrame_other (ofFrame_pedal body) hn

theorem reportsNotTaken_claim : Claims.ReportsNotTaken := by
  intro s p hq
  have same {cs : List LineChar} (h : portChars p cs (s.withCause false) = s.withCause false) :
      exec (.dataReport p cs) s = .next (sendIfIdle (s.withCause false)) ∧
      exec (.hello p cs) s = .next (sendIfIdle (s.withCause false)) :=
    ⟨exec_dataReport (u := s.withCause false) hq h, exec_hello (u := s.withCause false) hq h⟩
  refine ⟨fun hd cs => same (portChars_deaf (s := s.withCause false) (Port.listens_false hd) cs),
    fun hl hx => ⟨fun kind hk => ?_, fun kind check body hm => ?_⟩⟩
  · exact same (portChars_unknown (s := s.withCause false) hl hx (reportLength_unknown hk))
  · intro takes counts hno
    refine same ((portChars_frame (s := s.withCause false) hl hx (reportLength_known hm) check).trans ?_)
    split
    · next hz => exact takeReportFrame_untaken (hno.resolve_left (not_not_intro hz))
    · rfl

end untaken
end Sys2Proof.Machine

namespace Sys2Proof.Machine

/-! ### A Hello at a listening port (R99) -/

section hello
variable {s : State} {p : PortNo}

/-- The lamp finding its pattern again touches the pattern and its phase alone (R112). -/
theorem Port.relamp_shape (q : Port) : ∃ pat ph, q.relamp = { q with pattern := pat, phase := ph } := by
  unfold Port.relamp
  dsimp only
  split
  · exact ⟨q.pattern, q.phase, rfl⟩
  · exact ⟨_, _, rfl⟩

theorem Port.repicked_shape (q : Port) : ∃ pat ph, q.repicked =
    { q with pickup := if q.drive = .holding then q.freshPickup else q.pickup, pattern := pat, phase := ph } := by
  unfold Port.repicked
  split
  · exact Port.relamp_shape _
  · exact ⟨q.pattern, q.phase, rfl⟩

/-- Counting a poll that no active report answered touches the idle count and whether Idle is due alone (R105). -/
theorem Port.moreIdle_judgeIdle_shape (q : Port) : ∃ due, q.moreIdle.judgeIdle =
    { q with idle := if q.idleSent then q.idle else min (q.idle + 1) 1000, releaseDue := due } := by
  unfold Port.judgeIdle Port.moreIdle
  split
  · exact ⟨_, rfl⟩
  · exact ⟨_, rfl⟩

theorem Port.restarted_shape (q : Port) (k : Kind) : ∃ idle due pat ph, q.restarted k =
    { q.greeted k with
      pickup := if q.drive = .holding then (q.greeted k).freshPickup else q.pickup
      idle := idle, releaseDue := due, pattern := pat, phase := ph } := by
  obtain ⟨pat, ph, hx⟩ := Port.repicked_shape (q.greeted k)
  unfold Port.restarted
  split
  · obtain ⟨due, hy⟩ := Port.moreIdle_judgeIdle_shape (q.greeted k).repicked
    exact ⟨_, due, pat, ph, by rw [hy, hx]; rfl⟩
  · exact ⟨q.idle, q.releaseDue, pat, ph, hx⟩

theorem Port.greeted_freshPickup (q : Port) (k : Kind) : (q.greeted k).freshPickup =
    if (k = .strip ∨ k = .pedal) ∧ 0 < q.common.tolerance then .waiting else .pickedUp := by
  cases k with
  | wheel => exact (if_neg (by simp)).symm
  | strip | pedal => exact if_congr (by simp [Port.greeted, Port.clearInput]) rfl rfl

/-- A Hello frame is a Hello of its kind (R189). -/
theorem takeReportFrame_hello (k : Kind) : takeReportFrame p 0x10 [kindCode (some k)] s = takeHello k p s := by
  cases k <;> rfl

theorem hello_claim : Claims.Hello := by
  intro s p k hq hl hx q
  have hears : portChars p (goodChars (portFrame 0x10 [kindCode (some k)])) (s.withCause false) =
      takeHello k p (s.withCause false) :=
    (portChars_portFrame (s := s.withCause false) hl hx rfl).trans (takeReportFrame_hello k)
  by_cases hi : q.state = .identifying
  · have hfirst := hears.trans (takeHello_first k hi)
    by_cases ha : q.common.autoEnable = true
    · refine ⟨_, (q.greeted k).entered, exec_hello hq (hfirst.trans (if_pos ha)), withPort_self _ _ _,
        rfl, rfl, rfl, rfl, rfl, rfl, rfl, rfl, fun _ => ⟨(if_pos ha).symm, fun _ => ⟨rfl, rfl⟩, ?_⟩, absurd hi⟩
      exact (sendArbiter_toArbiter _ p .ready).trans (congrArg _ (if_pos ha).symm)
    · refine ⟨_, { q.greeted k with state := .attached }, exec_hello hq (hfirst.trans (if_neg ha)), withPort_self _ _ _,
        rfl, rfl, rfl, rfl, rfl, rfl, rfl, rfl, fun _ => ⟨(if_neg ha).symm, (absurd · ha), ?_⟩, absurd hi⟩
      exact (List.append_nil _).symm.trans (congrArg _ (if_neg ha).symm)
  · obtain ⟨idle, due, pat, ph, hr⟩ := Port.restarted_shape q k
    have hagain := (hears.trans (takeHello_again k hi)).trans (congrArg ((s.withCause false).withPort p) hr)
    refine ⟨_, _, exec_hello hq hagain, withPort_self _ _ _,
      rfl, rfl, rfl, rfl, rfl, rfl, rfl, rfl, fun h => absurd h hi, fun _ => ⟨rfl, rfl, fun hh => ?_⟩⟩
    exact (if_pos hh).trans (Port.greeted_freshPickup q k)

end hello
end Sys2Proof.Machine

namespace Sys2Proof.Machine

/-! ### A data report at a listening port (R105, R106) -/

section report
variable {s : State} {p : PortNo} {kind : Byte} {body : List Byte} {d : DataReport}

/-- A report of the port's kind in ATTACHED. -/
theorem exec_report_attached (hq : s.ports[p].quiet = true) (hl : s.ports[p].listens s.now = true)
    (hx : s.ports[p].rx = .hunting) (hlen : reportLength kind = some body.length)
    (hd : PortReport.ofFrame kind body = some (.data d)) (hk : s.ports[p].kind = some d.kind)
    (hs : s.ports[p].state = .attached) : exec (.dataReport p (goodChars (portFrame kind body))) s =
      .next (sendIfIdle ((s.withPort p (s.ports[p].noteReport d)).withCause false)) := by
  have hu := (portChars_portFrame (s := s.withCause false) hl hx hlen).trans (takeReportFrame_data hd (.inl hs) hk)
  have hne : (s.withCause false).ports[p].state ≠ .enabled := fun he => nomatch hs.symm.trans he
  have he := exec_dataReport hq (hu.trans (takeData_attached d hne))
  exact he

/-- A report of the port's kind in ENABLED. -/
theorem exec_report_enabled (hq : s.ports[p].quiet = true) (hl : s.ports[p].listens s.now = true)
    (hx : s.ports[p].rx = .hunting) (hlen : reportLength kind = some body.length)
    (hd : PortReport.ofFrame kind body = some (.data d)) (hk : s.ports[p].kind = some d.kind)
    (hs : s.ports[p].state = .enabled) : ∃ u, exec (.dataReport p (goodChars (portFrame kind body))) s =
      .next (sendIfIdle u) ∧ u.link = s.link ∧ u.ports[p] = s.ports[p].reported d s.engine.target ∧
      u.mail.toArbiter[p] = s.mail.toArbiter[p] ++
        (s.ports[p].sends d s.engine.target).map (fun m => { req := false, body := m }) := by
  have hu := (portChars_portFrame (s := s.withCause false) hl hx hlen).trans (takeReportFrame_data hd (.inr hs) hk)
  refine ⟨_, exec_dataReport hq (hu.trans (takeData_enabled d hs)), sendAll_link _ _ _, ?_, sendAll_toArbiter _ _ _⟩
  rw [State.withCause_ports, sendAll_ports, withPort_self]
  rfl

end report

/-! ### The keys of a report (R189) -/

theorem keys_masked_ne_zero (keys mask : Byte) :
    keys &&& mask ≠ 0 ↔ ∃ i, keys.getLsbD i = true ∧ mask.getLsbD i = true := by
  constructor
  · intro h
    by_contra hn
    refine h (BitVec.eq_of_getLsbD_eq fun i _ => ?_)
    rw [BitVec.getLsbD_and, show (0 : Byte).getLsbD i = false from BitVec.getLsbD_zero, Bool.and_eq_false_iff]
    by_contra hi
    simp only [not_or, Bool.not_eq_false] at hi
    exact hn ⟨i, hi⟩
  · rintro ⟨i, hk, hm⟩ h
    have hi := congrArg (BitVec.getLsbD · i) h
    simp [hk, hm] at hi

/-- The three keys of a report. -/
theorem keys_seven (keys : Byte) : keys &&& 7 ≠ 0 ↔
    keys.getLsbD 0 = true ∨ keys.getLsbD 1 = true ∨ keys.getLsbD 2 = true := by
  have mask (i : Nat) : (7 : Byte).getLsbD i = true ↔ i < 3 := by
    rw [show (7 : Byte) = BitVec.ofNat 8 (2 ^ 3 - 1) from rfl, BitVec.getLsbD_ofNat, Nat.testBit_two_pow_sub_one]
    simp; omega
  rw [keys_masked_ne_zero]
  simp only [mask]
  constructor
  · rintro ⟨i, hk, hm⟩
    interval_cases i <;> simp [hk]
  · rintro (h | h | h)
    exacts [⟨0, h, by omega⟩, ⟨1, h, by omega⟩, ⟨2, h, by omega⟩]

/-- The two that a STRIP has. -/
theorem keys_five (keys : Byte) : keys &&& 5 ≠ 0 ↔ keys.getLsbD 0 = true ∨ keys.getLsbD 2 = true := by
  have mask (i : Nat) : (5 : Byte).getLsbD i = true ↔ i = 0 ∨ i = 2 := by
    by_cases hi : i < 8
    · interval_cases i <;> decide
    · rw [BitVec.getLsbD_of_ge _ _ (not_lt.1 hi)]
      simp; omega
  rw [keys_masked_ne_zero]
  simp only [mask]
  constructor
  · rintro ⟨i, hk, rfl | rfl⟩
    exacts [.inl hk, .inr hk]
  · rintro (h | h)
    exacts [⟨0, h, .inl rfl⟩, ⟨2, h, .inr rfl⟩]

/-! ### A report judged (R105) -/

section judged
variable (q : Port) (d : DataReport) (t : Int)

theorem Port.isActive_iff : q.isActive d = true ↔
    (d.keys.startStop = true ∨ d.keys.reverse = true ∨ d.keys.claim = true) ∨
    (match d with
      | .wheel delta _ => delta ≠ 0
      | .strip counts _ => q.touched counts = true
      | .pedal level _ => q.pedal.deadBand < level) := by
  unfold Port.isActive
  cases d <;> simp [or_assoc]

/-- Tracking the strip touches what the acquisition goes by alone (R108). -/
theorem Port.trackStrip_shape (raw : Vector Nat 5) : q.trackStrip raw = { q with
    sums := (q.trackStrip raw).sums, acquired := (q.trackStrip raw).acquired
    baselines := (q.trackStrip raw).baselines } := by
  unfold Port.trackStrip
  dsimp only
  split
  · rfl
  · split <;> rfl

/-- The idle count after a report, and whether Idle has been sent (R105). -/
theorem Port.judged_shape (x : Port) (hx : (q.noteReport d).mapInput q d = x) : ∃ due, q.judged d = { x with
    idle := if q.isActive d then 0 else if x.idleSent then x.idle else min (x.idle + 1) 1000
    idleSent := if q.isActive d then false else x.idleSent
    releaseDue := due } := by
  subst hx
  unfold Port.judged
  dsimp only
  split
  · exact ⟨_, rfl⟩
  · exact Port.moreIdle_judgeIdle_shape _

end judged

end Sys2Proof.Machine

namespace Sys2Proof.Machine

/-! ### A report of a WHEEL (R107) -/

section wheel
variable (q : Port) (delta : Int) (keys : Byte) (t : Int)

/-- The input a WHEEL forms: a target, a press, a jog (R106, R107). -/
theorem Port.input_wheel : q.input (.wheel delta (Keys.ofByte keys)) t =
    (match q.wheel.style with
      | .speed => if delta ≠ 0 ∨ keys.getLsbD 1 = true then
          [.setTarget (if keys.getLsbD 1 then -(t + delta * q.wheel.speedStep) else t + delta * q.wheel.speedStep)] else []
      | .jog => if keys.getLsbD 1 then [.setTarget (-t)] else []) ++
      (if keys.getLsbD 0 then [.key] else []) ++
      (if q.wheel.style = .jog ∧ delta ≠ 0 then [.jog (delta * q.wheel.jogSize)] else []) := by
  have hpress : (DataReport.press (.wheel delta (Keys.ofByte keys))).toList =
      if keys.getLsbD 0 then [.key] else [] := apply_ite Option.toList _ _ _
  rw [Port.input, hpress, Port.wheelTarget, Port.wheelJog, show (Keys.ofByte keys).reverse = keys.getLsbD 1 from rfl]
  cases q.wheel.style with
  | speed =>
    split_ifs <;> simp_all
  | jog =>
    split_ifs <;> simp_all

/-- Nothing that a WHEEL sends goes by what a report has made of the port before (R107). -/
theorem Port.sends_wheel : q.sends (.wheel delta (Keys.ofByte keys)) t =
    (if q.isActive (.wheel delta (Keys.ofByte keys)) then [.claim] else []) ++
      if q.drive = .holding then q.input (.wheel delta (Keys.ofByte keys)) t else [] := by
  obtain ⟨due, hj⟩ := Port.judged_shape q (.wheel delta (Keys.ofByte keys)) _ rfl
  rw [Port.sends, hj]
  rfl

theorem Port.reported_wheel (k : Keys) : q.reported (.wheel delta k) t = q.judged (.wheel delta k) := ite_self _

theorem wheelReport_claim : Claims.WheelReport := by
  intro s p delta keys hq hl hx hk hs q d reverse active v input
  let r : DataReport := .wheel d (Keys.ofByte keys)
  have hlen : reportLength 0x11 = some [delta, keys].length := rfl
  have hframe : PortReport.ofFrame 0x11 [delta, keys] = some (.data r) := rfl
  have hactive : q.isActive r = true ↔ active := by
    rw [Port.isActive_iff, or_comm]
    exact or_congr Iff.rfl (keys_seven keys).symm
  have hinput : q.input r s.engine.target = input := Port.input_wheel q d keys s.engine.target
  rcases hs with hs | hs
  · refine ⟨_, exec_report_attached hq hl hx hlen hframe hk hs, rfl, ?_⟩
    rw [State.withCause_ports, withPort_self]
    exact ⟨rfl, rfl, rfl, fun _ => ⟨rfl, rfl⟩, fun he => nomatch hs.symm.trans he⟩
  · obtain ⟨u, he, hlink, hport, hmail⟩ := exec_report_enabled hq hl hx hlen hframe hk hs
    obtain ⟨due, hj⟩ := Port.judged_shape q r _ rfl
    have hu := (hport.trans (Port.reported_wheel _ _ _ _)).trans hj
    refine ⟨u, he, hlink, by rw [hu]; rfl, by rw [hu]; rfl, by rw [hu]; rfl, fun ha => (nomatch hs.symm.trans ha), fun _ => ?_⟩
    refine ⟨?_, fun ha => ?_, fun hn => ?_⟩
    · rw [hmail, Port.sends_wheel, if_congr hactive rfl rfl, hinput]
    · have ha := hactive.2 ha
      rw [hu]
      exact ⟨if_pos ha, if_pos ha⟩
    · rw [hu]
      exact if_neg (mt hactive.1 hn)

end wheel
end Sys2Proof.Machine

namespace Sys2Proof.Machine

/-! ### Mapped targets met with the engine's (R111) -/

section met
variable (q : Port) (d : DataReport) (t : Int)

/-- The pickup state once the mapped target has met the engine's. -/
def Port.pickupMet (q : Port) (t : Int) : Pickup :=
  match q.mapped with
  | some m => q.pickupWith m t
  | none => q.pickup

/-- The target that is then sent, if any. -/
def Port.targetMet (q : Port) (t : Int) : Option Int := { q with pickup := q.pickupMet t }.absoluteTarget q.mapped

variable {q} in
theorem Port.pickupMet_none (h : q.mapped = none) : q.pickupMet t = q.pickup := by rw [Port.pickupMet, h]

variable {q} in
theorem Port.pickupMet_some {m : Int} (h : q.mapped = some m) : q.pickupMet t = q.pickupWith m t := by
  rw [Port.pickupMet, h]

theorem Port.met_shape : ∃ pat ph, q.met t = { q with pickup := q.pickupMet t, pattern := pat, phase := ph } := by
  unfold Port.met
  split
  · next m h => rw [Port.pickupMet_some t h]; exact Port.relamp_shape _
  · next h =>
    rw [Port.pickupMet_none t h]
    exact ⟨q.pattern, q.phase, rfl⟩

theorem Port.absoluteTarget_met : (q.met t).absoluteTarget (q.met t).mapped = q.targetMet t := by
  obtain ⟨pat, ph, h⟩ := q.met_shape t
  rw [h]
  rfl

theorem Port.settled_met : ∃ pat ph, (q.met t).settled = { q with
    pickup := q.pickupMet t, lastSent := (q.targetMet t).or q.lastSent, pattern := pat, phase := ph } := by
  obtain ⟨pat, ph, h⟩ := q.met_shape t
  refine ⟨pat, ph, ?_⟩
  rw [Port.settled, Port.absoluteTarget_met, h]

theorem Port.pickupWith_iff (m : Int) : q.pickupWith m t = .pickedUp ↔
    q.pickup = .pickedUp ∨ (m - t).natAbs ≤ q.common.tolerance ∨
      ∃ x, q.prevMapped = some x ∧ ((x < t ∧ t ≤ m) ∨ (t < x ∧ m ≤ t)) := by
  have hcross : crosses q.prevMapped m t = true ↔
      ∃ x, q.prevMapped = some x ∧ ((x < t ∧ t ≤ m) ∨ (t < x ∧ m ≤ t)) := by
    cases q.prevMapped <;> simp [crosses]
  rw [Port.pickupWith, ← hcross]
  simp only [ite_eq_left_iff, reduceCtorEq, imp_false, not_not]

theorem Port.pickupWith_waiting (m : Int) (h : q.pickupWith m t ≠ .pickedUp) : q.pickupWith m t = .waiting := by
  cases hp : q.pickupWith m t with
  | pickedUp => exact absurd hp h
  | waiting => rfl

variable {q} in
theorem Port.targetMet_none (h : q.mapped = none) : q.targetMet t = none := by rw [Port.targetMet, h]; rfl

variable {q} in
theorem Port.targetMet_some {m : Int} (h : q.mapped = some m) : q.targetMet t =
    if q.pickupWith m t = .pickedUp ∧ q.lastSent ≠ some m then some m else none := by
  rw [Port.targetMet, Port.pickupMet_some t h, h]
  rfl

/-- Last sent is then the mapped target of a port that is picked up. -/
theorem Port.targetMet_or {q : Port} {m : Int} (h : q.mapped = some m) : (q.targetMet t).or q.lastSent =
    if q.pickupWith m t = .pickedUp then some m else q.lastSent := by
  rw [Port.targetMet_some t h]
  by_cases hp : q.pickupWith m t = .pickedUp <;> by_cases hl : q.lastSent = some m <;> simp [hp, hl]

variable {q d}

/-- What a report of a strip or a pedal makes of a port in ENABLED; `x` is the port with its mapped target formed. -/
theorem Port.reported_absolute (hd : d.kind ≠ .wheel) {x : Port} (hx : (q.noteReport d).mapInput q d = x) :
    ∃ due pat ph, q.reported d t = { x with
      idle := if q.isActive d then 0 else if x.idleSent then x.idle else min (x.idle + 1) 1000
      idleSent := if q.isActive d then false else x.idleSent
      releaseDue := due
      pickup := if q.drive = .holding then x.pickupMet t else x.pickup
      lastSent := if q.drive = .holding then (x.targetMet t).or x.lastSent else x.lastSent
      pattern := pat, phase := ph } := by
  obtain ⟨due, hj⟩ := q.judged_shape d x hx
  have hformed : (q.judged d).formed d t = ((q.judged d).met t).settled := by
    cases d with
    | wheel => exact absurd rfl hd
    | strip | pedal => rfl
  unfold Port.reported
  split
  · obtain ⟨pat, ph, hs⟩ := (q.judged d).settled_met t
    refine ⟨due, pat, ph, ?_⟩
    rw [hformed, hs, hj]
    rfl
  · exact ⟨due, x.pattern, x.phase, hj⟩

/-- What such a port sends: the claim of an active report, and from a holder a target and a press. -/
theorem Port.sends_absolute (hd : d.kind ≠ .wheel) {x : Port} (hx : (q.noteReport d).mapInput q d = x) :
    q.sends d t = (if q.isActive d then [.claim] else []) ++
      if q.drive = .holding then ((x.targetMet t).map PortMsg.setTarget).toList ++ d.press.toList else [] := by
  obtain ⟨due, hj⟩ := q.judged_shape d x hx
  have hinput : (q.judged d).input d t =
      ((((q.judged d).met t).absoluteTarget ((q.judged d).met t).mapped).map PortMsg.setTarget).toList ++
        d.press.toList := by
    cases d with
    | wheel => exact absurd rfl hd
    | strip | pedal => rfl
  rw [Port.sends, hinput, Port.absoluteTarget_met, hj]
  rfl

end met

end Sys2Proof.Machine

namespace Sys2Proof.Machine

/-! ### A report of a PEDAL (R110) -/

section pedal

/-- A press of a report, as a list. -/
theorem DataReport.press_toList (d : DataReport) : d.press.toList = if d.keys.startStop then [.key] else [] :=
  apply_ite Option.toList _ _ _

/-- A claim is sent alone or not at all. -/
theorem map_claim {c : Prop} [Decidable c] (f : PortMsg → Msg PortMsg) :
    (if c then [PortMsg.claim] else []).map f = if c then [f .claim] else [] := apply_ite (List.map f) _ _ _

/-- The target of a picked-up holder, as a list. -/
theorem Port.targetMet_toList (q : Port) (t : Int) {m : Int} (h : q.mapped = some m) :
    ((q.targetMet t).map PortMsg.setTarget).toList =
      if q.pickupWith m t = .pickedUp ∧ q.lastSent ≠ some m then [.setTarget m] else [] := by
  rw [Port.targetMet_some t h]
  split <;> rfl

/-- A pedal's mapped target: the level over the dead band, times the gain, over 16, signed by the latched reverse (R110). -/
theorem Port.mapReport_pedal (q : Port) (l : Nat) (k : Keys) : q.mapReport (.pedal l k) =
    some (if l ≤ q.pedal.deadBand then 0
      else if q.reverse then -(((l - q.pedal.deadBand) * q.pedal.gain / 16 : Nat) : Int)
      else (((l - q.pedal.deadBand) * q.pedal.gain / 16 : Nat) : Int)) :=
  (apply_ite some _ _ _).symm

theorem pedalReport_claim : Claims.PedalReport := by
  intro s p level keys hq hl hx hk q l reverse size m t picked active c
  let r : DataReport := .pedal l (Keys.ofByte keys)
  have hlen : reportLength 0x13 = some [level, keys].length := rfl
  have hframe : PortReport.ofFrame 0x13 [level, keys] = some (.data r) := rfl
  have hkind : r.kind ≠ .wheel := nofun
  have hactive : q.isActive r = true ↔ active := by
    rw [Port.isActive_iff, or_comm]
    exact or_congr Iff.rfl (keys_seven keys).symm
  refine ⟨exec_report_attached hq hl hx hlen hframe hk, fun hs => ?_⟩
  let x : Port := { q with
    silence := 0, answered := true, reverse := reverse, prevMapped := q.mapped, mapped := some m }
  have hmap : (q.noteReport r).mapInput q r = x :=
    congrArg (fun y : Option Int => { q with
      silence := 0, answered := true, reverse := reverse, prevMapped := q.mapped, mapped := y })
      (Port.mapReport_pedal { q with reverse := reverse } l (Keys.ofByte keys))
  have hpicked : x.pickupWith m t = .pickedUp ↔ picked := x.pickupWith_iff t m
  obtain ⟨u, he, hlink, hport, hmail⟩ := exec_report_enabled hq hl hx hlen hframe hk hs
  obtain ⟨due, pat, ph, hr⟩ := Port.reported_absolute t hkind hmap
  rw [Port.sends_absolute t hkind hmap, if_congr hactive rfl rfl] at hmail
  have hu := hport.trans hr
  refine ⟨u, he, hlink, by rw [hu], by rw [hu], by rw [hu], by rw [hu], by rw [hu], by rw [hu]; exact hs,
    fun ha => ?_, fun hn => ?_, fun hh => ?_, fun hh => ?_⟩
  · rw [hu]
    exact ⟨if_pos (hactive.2 ha), if_pos (hactive.2 ha)⟩
  · rw [hu]
    exact if_neg (mt hactive.1 hn)
  · rw [if_neg hh, List.append_nil, map_claim] at hmail
    rw [hu]
    exact ⟨if_neg hh, if_neg hh, hmail⟩
  · rw [if_pos hh, x.targetMet_toList t rfl, if_congr (and_congr_left' hpicked) rfl rfl, DataReport.press_toList,
      ← List.append_assoc] at hmail
    rw [hu]
    refine ⟨fun hp => ?_, fun hn => ?_, ?_, hmail⟩
    · exact (if_pos hh).trans ((Port.pickupMet_some t rfl).trans (hpicked.2 hp))
    · exact (if_pos hh).trans ((Port.pickupMet_some t rfl).trans (x.pickupWith_waiting t m (mt hpicked.1 hn)))
    · exact (if_pos hh).trans ((Port.targetMet_or t rfl).trans (if_congr hpicked rfl rfl))

end pedal
end Sys2Proof.Machine

namespace Sys2Proof.Machine

/-! ### The strip of a port (R108, R109) -/

section strip
variable (q : Port) (raw : Vector Nat 5) (k : Keys)

/-- Whether one segment is touched. -/
def Port.segmentTouched (i : Fin 5) : Bool :=
  decide (q.acquired = 8) && decide (q.baselines[i] + q.strip.threshold ≤ raw[i])

theorem Port.weight_eq (i : Fin 5) :
    q.weight raw i = if q.segmentTouched raw i then raw[i] - q.baselines[i] else 0 :=
  if_congr (by simp [Port.segmentTouched]) rfl rfl

/-- With a threshold of at least 1 a touched segment has weight. -/
theorem Port.weight_pos (h : 1 ≤ q.strip.threshold) (i : Fin 5) :
    0 < q.weight raw i ↔ q.segmentTouched raw i = true := by
  rw [Port.weight_eq]
  split
  · next ht =>
    have hle : q.baselines[i] + q.strip.threshold ≤ raw[i] := by
      simp only [Port.segmentTouched, Bool.and_eq_true, decide_eq_true_eq] at ht
      exact ht.2
    simp only [ht, iff_true]
    omega
  · next ht => simp [ht]

theorem Port.touched_iff (h : 1 ≤ q.strip.threshold) :
    q.touched raw = true ↔ ∃ i, q.segmentTouched raw i = true := by
  simp [Port.touched, Port.weight_pos q raw h]

theorem Port.touched_eq_false (h : 1 ≤ q.strip.threshold) :
    q.touched raw = false ↔ ∀ i, q.segmentTouched raw i = false := by
  rw [← Bool.not_eq_true, Port.touched_iff q raw h]
  simp

/-- The centroid of the five segments (R109). -/
theorem Port.touchAt_eq : q.touchAt raw =
    (q.weight raw 0 * 0 + q.weight raw 1 * 64 + q.weight raw 2 * 128 + q.weight raw 3 * 192 + q.weight raw 4 * 255) /
      (q.weight raw 0 + q.weight raw 1 + q.weight raw 2 + q.weight raw 3 + q.weight raw 4) := by
  have sum (f : Fin 5 → Nat) : ((List.finRange 5).map f).sum = f 0 + f 1 + f 2 + f 3 + f 4 := by
    rw [← List.ofFn_eq_map, List.sum_ofFn, Fin.sum_univ_five]
  rw [Port.touchAt, sum, sum]
  rfl

theorem Port.mapReport_touched (h : q.touched raw = true) : q.mapReport (.strip raw k) =
    some ((((q.touchAt raw : Nat) - 128 : Int) * q.strip.gain).tdiv 16) := if_pos h

theorem Port.mapReport_untouched (h : q.touched raw = false) : q.mapReport (.strip raw k) =
    if q.strip.style = .zero then some 0 else none := by
  refine (if_neg (Bool.eq_false_iff.1 h)).trans ?_
  cases q.strip.style <;> rfl

/-- The strip's weights, written as the statements do. -/
theorem Port.weight_fun : q.weight raw = fun i => if q.segmentTouched raw i then raw[i] - q.baselines[i] else 0 :=
  funext (q.weight_eq raw)

/-! Tracking, case by case (R108) -/

theorem Port.trackStrip_acquiring (h : q.acquired < 7) : q.trackStrip raw =
    { q with acquired := q.acquired + 1, sums := Vector.zipWith (· + ·) q.sums raw } := by
  refine (if_pos (Nat.lt_succ_of_lt h)).trans ?_
  dsimp only
  rw [if_neg (Nat.ne_of_lt h)]

theorem Port.trackStrip_eighth (h : q.acquired = 7) : q.trackStrip raw =
    { q with acquired := 8, sums := Vector.zipWith (· + ·) q.sums raw
             baselines := (Vector.zipWith (· + ·) q.sums raw).map (· / 8) } := by
  refine (if_pos (by omega)).trans ?_
  dsimp only
  rw [if_pos h, h]

theorem Port.trackStrip_touched (h : q.acquired = 8) (ht : q.touched raw = true) : q.trackStrip raw = q :=
  (if_neg (by omega)).trans (if_pos ht)

theorem Port.trackStrip_untouched (h : q.acquired = 8) (ht : q.touched raw = false) : q.trackStrip raw =
    { q with baselines := Vector.zipWith (drift q.strip.threshold) q.baselines raw } :=
  (if_neg (by omega)).trans (if_neg (Bool.eq_false_iff.1 ht))

theorem stripBaselines_claim : Claims.StripBaselines := by
  intro q raw k touched weight total moment hthr
  have hweight : q.weight raw = weight := q.weight_fun raw
  have hany : q.touched raw = true ↔ ∃ i, touched i = true := q.touched_iff raw hthr
  have hnone : q.touched raw = false ↔ ∀ i, touched i = false := q.touched_eq_false raw hthr
  have hat : q.touchAt raw = moment / total := by rw [Port.touchAt_eq, hweight]
  refine ⟨fun ha => ?_, fun ha => ?_, fun ha ht => q.trackStrip_touched raw ha (hany.2 ht),
    fun ha hn i => ?_, fun ht => ?_, fun hn => q.mapReport_untouched raw k (hnone.2 hn)⟩
  · rw [q.trackStrip_acquiring raw ha]
    exact ⟨rfl, fun i => by simp, rfl⟩
  · rw [q.trackStrip_eighth raw ha]
    exact ⟨rfl, fun i => by simp⟩
  · rw [q.trackStrip_untouched raw ha (hnone.2 hn)]
    simp [drift]
  · rw [q.mapReport_touched raw k (hany.2 ht), hat]

end strip
end Sys2Proof.Machine

namespace Sys2Proof.Machine

/-! ### A report of a STRIP (R108, R109, R189) -/

section report
variable (q : Port) (raw : Vector Nat 5) (keys : Byte)

/-- What a report of a strip says: five counts, and the keys without REVERSE. -/
def stripData (raw : Vector Nat 5) (keys : Byte) : DataReport :=
  .strip raw { Keys.ofByte keys with reverse := false }

theorem byte_pair {n : Nat} (h : n ≤ 4095) : (byte (n / 256)).toNat * 256 + (byte n).toNat = n := by
  simp only [byte, BitVec.toNat_ofNat]
  omega

variable {raw} in
/-- A strip's frame read back. -/
theorem ofFrame_stripData (h : ∀ i : Fin 5, raw[i] ≤ 4095) :
    PortReport.ofFrame 0x12 (raw.toList.flatMap two ++ [keys]) = some (.data (stripData raw keys)) := by
  have hcounts : u16 (raw.toList.flatMap two ++ [keys]) 0 = raw[0] ∧
      u16 (raw.toList.flatMap two ++ [keys]) 2 = raw[1] ∧ u16 (raw.toList.flatMap two ++ [keys]) 4 = raw[2] ∧
      u16 (raw.toList.flatMap two ++ [keys]) 6 = raw[3] ∧ u16 (raw.toList.flatMap two ++ [keys]) 8 = raw[4] := by
    rw [toList_five]
    exact ⟨byte_pair (h 0), byte_pair (h 1), byte_pair (h 2), byte_pair (h 3), byte_pair (h 4)⟩
  have hkeys : (raw.toList.flatMap two ++ [keys]).getD 10 0 = keys := by
    rw [toList_five]
    rfl
  have hraw : #v[raw[0], raw[1], raw[2], raw[3], raw[4]] = raw := Vector.toList_inj.1 (toList_five raw).symm
  obtain ⟨h0, h1, h2, h3, h4⟩ := hcounts
  rw [ofFrame_strip, h0, h1, h2, h3, h4, hkeys, hraw]
  exact if_pos ⟨h 0, h 1, h 2, h 3, h 4⟩

theorem stripFrame_length : reportLength 0x12 = some (raw.toList.flatMap two ++ [keys]).length := by
  rw [toList_five]
  rfl

theorem Port.noteReport_strip : q.noteReport (stripData raw keys) = { q with
    sums := (q.trackStrip raw).sums, acquired := (q.trackStrip raw).acquired
    baselines := (q.trackStrip raw).baselines, silence := 0, answered := true } :=
  congrArg (fun y : Port => { y with silence := 0, answered := true }) (q.trackStrip_shape raw)

theorem Port.touched_eq (h : 1 ≤ q.strip.threshold) : q.touched raw =
    (q.segmentTouched raw 0 || q.segmentTouched raw 1 || q.segmentTouched raw 2 || q.segmentTouched raw 3 ||
      q.segmentTouched raw 4) := by
  rw [Bool.eq_iff_iff, Port.touched_iff q raw h]
  simp [Fin.exists_fin_succ, or_assoc]

/-- A touch, a START_STOP or a CLAIM press makes a strip's report active (R105). -/
theorem Port.isActive_strip : q.isActive (stripData raw keys) = true ↔ q.touched raw = true ∨ keys &&& 5 ≠ 0 := by
  rw [Port.isActive_iff, keys_five, or_comm]
  refine or_congr Iff.rfl (or_congr Iff.rfl ?_)
  exact or_iff_right Bool.false_ne_true

/-- The mapped target of a strip's report (R109). -/
theorem Port.mapReport_strip : q.mapReport (stripData raw keys) =
    if q.touched raw then some ((((q.touchAt raw : Nat) - 128 : Int) * q.strip.gain).tdiv 16)
    else if q.strip.style = .zero then some 0 else none := by
  split
  · next h => exact q.mapReport_touched raw _ h
  · next h => exact q.mapReport_untouched raw _ (Bool.eq_false_iff.2 h)

theorem stripReport_claim : Claims.StripReport := by
  intro s p raw keys hq hl hx hk hraw q touched weight total moment any mapped t near active claims press note c moved hthr
  let r : DataReport := stripData raw keys
  have hlen := stripFrame_length raw keys
  have hframe : PortReport.ofFrame 0x12 (raw.toList.flatMap two ++ [keys]) = some (.data r) := ofFrame_stripData keys hraw
  have hkind : r.kind ≠ .wheel := nofun
  have hany : q.touched raw = any := q.touched_eq raw hthr
  have hactive : q.isActive r = true ↔ active := by rw [Port.isActive_strip, hany]
  have hmapped : q.mapReport r = mapped := by
    rw [Port.mapReport_strip, Port.touchAt_eq, Port.weight_fun, hany]
    rfl
  refine ⟨exec_report_attached hq hl hx hlen hframe hk, fun hs => ?_⟩
  let x : Port := { q with
    sums := moved.sums, acquired := moved.acquired, baselines := moved.baselines
    silence := 0, answered := true, prevMapped := q.mapped, mapped := mapped }
  have hmap : (q.noteReport r).mapInput q r = x := by
    rw [Port.noteReport_strip]
    exact congrArg (fun y : Option Int => { x with mapped := y }) hmapped
  have hpicked (m : Int) : x.pickupWith m t = .pickedUp ↔ q.pickup = .pickedUp ∨ near m := x.pickupWith_iff t m
  obtain ⟨u, he, hlink, hport, hmail⟩ := exec_report_enabled hq hl hx hlen hframe hk hs
  obtain ⟨due, pat, ph, hr⟩ := Port.reported_absolute t hkind hmap
  rw [Port.sends_absolute t hkind hmap, if_congr hactive rfl rfl] at hmail
  have hu := hport.trans hr
  refine ⟨u, he, hlink, by rw [hu], by rw [hu], by rw [hu]; exact hs, by rw [hu], by rw [hu], by rw [hu], by rw [hu],
    by rw [hu], by rw [hu], fun ha => ?_, fun hn => ?_, fun hh => ?_, fun hh => ?_⟩
  · rw [hu]
    exact ⟨if_pos (hactive.2 ha), if_pos (hactive.2 ha)⟩
  · rw [hu]
    exact if_neg (mt hactive.1 hn)
  · rw [if_neg hh, List.append_nil] at hmail
    rw [hu]
    exact ⟨if_neg hh, if_neg hh, hmail⟩
  · rw [if_pos hh, DataReport.press_toList] at hmail
    have hpickup : u.ports[p].pickup = x.pickupMet t := by rw [hu]; exact if_pos hh
    have hlast : u.ports[p].lastSent = (x.targetMet t).or q.lastSent := by rw [hu]; exact if_pos hh
    refine ⟨fun hm => ?_, fun m hm hp => ?_, fun m hm hw hn => ?_⟩
    · rw [Port.targetMet_none t (q := x) hm] at hmail hlast
      exact ⟨hpickup.trans (Port.pickupMet_none t hm), hlast, hmail⟩
    · have hp := (hpicked m).2 hp
      rw [x.targetMet_toList t hm, if_congr (and_iff_right hp) rfl rfl, ite_not, ← List.append_assoc] at hmail
      refine ⟨hpickup.trans ((Port.pickupMet_some t hm).trans hp), ?_, hmail⟩
      exact hlast.trans ((Port.targetMet_or t hm).trans (if_pos hp))
    · have hp : x.pickupWith m t ≠ .pickedUp := fun h =>
        ((hpicked m).1 h).elim (fun h => nomatch hw.symm.trans h) hn
      have hsilent : ((x.targetMet t).map PortMsg.setTarget).toList = [] :=
        (x.targetMet_toList t hm).trans (if_neg fun h => hp h.1)
      rw [hsilent] at hmail
      refine ⟨hpickup.trans ((Port.pickupMet_some t hm).trans (x.pickupWith_waiting t m hp)), ?_, hmail⟩
      exact hlast.trans ((Port.targetMet_or t hm).trans (if_neg hp))

end report

/-- Settles O54. Each control's report is first read back from its frame, and then taken by the rules of a port. -/
theorem portReports : Obligations.PortReports :=
  ⟨hello_claim, wheelReport_claim, pedalReport_claim, stripBaselines_claim, stripReport_claim, reportsNotTaken_claim⟩

end Sys2Proof.Machine

namespace Sys2Proof.Machine

/-! ### The Drive Arbiter's operations, each said once (R120, R122 to R125) -/

section arbiter
variable {a : Arbiter} {p q : PortNo}

/-! Bars and the list -/

theorem Arbiter.barred_iff : a.barred p = true ↔
    (∃ q, a.pin = some q ∧ q ≠ p) ∨
    (a.pin = none ∧ ((a.mode = .operatorOnly ∧ a.classes[p] = .presenter) ∨
      (a.mode = .presenterOnly ∧ a.classes[p] = .operator))) := by
  unfold barred
  split
  · next q hq => simp [hq]
  · next hn =>
    simp only [hn, reduceCtorEq, false_and, exists_false, true_and, false_or]
    split
    · next hm hc => simp [hm, hc]
    · next hm hc => simp [hm, hc]
    · next h1 h2 => simpa using ⟨h1, h2⟩

/-- A pin bars every port but its own (R120). -/
theorem Arbiter.barred_of_pin (h : a.pin = some q) : a.barred p = false ↔ p = q := by
  have hb : a.barred p = decide (q ≠ p) := by simp only [barred, h]
  rw [hb, decide_eq_false_iff_not, not_not, eq_comm]

theorem Arbiter.join_eq (a : Arbiter) (p : PortNo) :
    a.join p = { a with joined := if p ∈ a.joined then a.joined else a.joined ++ [p] } := by
  unfold join
  split <;> rfl

theorem Arbiter.join_new (h : p ∉ a.joined) : a.join p = { a with joined := a.joined ++ [p] } := if_neg h

theorem Arbiter.mem_join : q ∈ (a.join p).joined ↔ q ∈ a.joined ∨ q = p := by
  rw [join_eq]
  dsimp only
  split
  · next h => exact ⟨.inl, fun hq => hq.elim id (· ▸ h)⟩
  · simp

theorem Arbiter.mem_leave : q ∈ (a.leave p).joined ↔ q ∈ a.joined ∧ q ≠ p := by simp [leave]

/-- A free drive is granted: nobody waits (R122). -/
theorem Arbiter.grant_free (h : a.joined = []) : a.grant p = { a with holder := some (.port p) } := by
  simp [grant, leave, h]

theorem Arbiter.mem_waiting : p ∈ a.waiting ↔ p ∈ a.joined := by
  have hc : a.classes[p] = .operator ∨ a.classes[p] = .presenter := by cases a.classes[p] <;> simp
  simp only [waiting, List.mem_append, List.mem_filter, decide_eq_true_eq, ← and_or_left, hc, and_true]

theorem Arbiter.setActive_active_other {b : Bool} (h : q ≠ p) : (a.setActive p b).active[q] = a.active[q] :=
  Vector.getElem_set_ne p.isLt q.isLt fun e => h (Fin.ext e.symm)

theorem Arbiter.setEnabled_enabled (a : Arbiter) (p q : PortNo) (b : Bool) :
    (a.setEnabled p b).enabled[q] = if q = p then b else a.enabled[q] := by
  unfold setEnabled
  rw [Fin.getElem_fin, Vector.getElem_set, if_congr (Fin.ext_iff.symm.trans eq_comm) rfl rfl]
  rfl

/-! A loss of the drive (R124, R125) -/

theorem Arbiter.yield_port (h : a.holder = some (.port q)) : a.yield =
    { a with holder := none, joined := if a.active[q] then (a.join q).joined else a.joined } := by
  simp only [yield, h]
  split
  · rw [join_eq]
  · rfl

theorem Arbiter.yield_other (h : ∀ q, a.holder ≠ some (.port q)) : a.yield = a := by
  unfold yield
  split
  · next q hq => exact absurd hq (h q)
  · rfl

/-- The drive goes to the head of the waiting list, else to nobody. -/
def Arbiter.grantNext (a : Arbiter) : Arbiter :=
  match a.waiting with
  | q :: _ => a.grant q
  | [] => { a with holder := none }

theorem Arbiter.grantNext_head (h : a.waiting.head? = some q) : a.grantNext = a.grant q := by
  obtain ⟨rest, hw⟩ := List.head?_eq_some_iff.1 h
  simp only [grantNext, hw]

theorem Arbiter.grantNext_none (h : a.joined = []) : a.grantNext = { a with holder := none } := by
  have hw : a.waiting = [] := by simp [waiting, h]
  simp only [grantNext, hw]

theorem Arbiter.release_eq (a : Arbiter) : a.release =
    if a.deskClaim then { a with holder := some .desk }
    else match a.pin with
      | some p => if a.enabled[p] then a.grant p else a.grantNext
      | none => a.grantNext := rfl

theorem Arbiter.release_desk (hc : a.deskClaim = true) : a.release = { a with holder := some .desk } := if_pos hc

theorem Arbiter.release_pinned (hc : a.deskClaim = false) (hp : a.pin = some p) (he : a.enabled[p] = true) :
    a.release = a.grant p := by
  simp only [release_eq, hc, hp, he, Bool.false_eq_true, if_false, if_true]

/-- No claim of the desk and no pin on a port that is ENABLED: the waiting list decides. -/
theorem Arbiter.release_next (hc : a.deskClaim = false) (hp : ∀ p, a.pin = some p → a.enabled[p] = false) :
    a.release = a.grantNext := by
  simp only [release_eq, hc, Bool.false_eq_true, if_false]
  split
  · next p hpin => rw [hp p hpin]; rfl
  · rfl

theorem Arbiter.releaseIf_port (test : PortNo → Bool) (h : a.holder = some (.port q)) :
    a.releaseIf test = if test q then a.release else a := by
  simp only [releaseIf, h]

theorem Arbiter.releaseIf_other (test : PortNo → Bool) (h : ∀ q, a.holder ≠ some (.port q)) :
    a.releaseIf test = a := by
  unfold releaseIf
  split
  · next q hq => exact absurd hq (h q)
  · rfl

/-! A Claim, by what it finds (R123, R124) -/

theorem Arbiter.claim_nothing (h : a.barred p = true ∨ a.holder = some (.port p) ∨ a.enabled[p] = false) :
    a.claim p = a.setActive p true := by
  have hb : (a.setActive p true).barred p = a.barred p := rfl
  have he : (a.setActive p true).enabled[p] = a.enabled[p] := rfl
  have hh : (a.setActive p true).holder = a.holder := rfl
  unfold claim
  dsimp only
  rw [hb, he, hh]
  split
  · rfl
  · next hn =>
    rcases h with h | h | h
    · exact absurd (.inl h) hn
    · simp only [h, if_true]
    · exact absurd (.inr (by simp [h])) hn

/-- A port that can hold, and does not: the holder decides. -/
theorem Arbiter.claim_open (hb : a.barred p = false) (he : a.enabled[p] = true) :
    a.claim p = match a.holder with
      | none => (a.setActive p true).grant p
      | some .desk => (a.setActive p true).join p
      | some (.port q) =>
        if q = p then a.setActive p true
        else if a.mode = .operatorFirst ∧ a.classes[p] = .operator ∧ a.classes[q] = .presenter then
          (a.setActive p true).yield.grant p
        else (a.setActive p true).join p := by
  have hn : ¬((a.setActive p true).barred p = true ∨ (!(a.setActive p true).enabled[p]) = true) := by
    have hb' : (a.setActive p true).barred p = false := hb
    have he' : (a.setActive p true).enabled[p] = true := he
    simp [hb', he']
  exact (if_neg hn).trans rfl

theorem Arbiter.claim_free (hb : a.barred p = false) (he : a.enabled[p] = true) (hh : a.holder = none) :
    a.claim p = (a.setActive p true).grant p := by
  simp only [claim_open hb he, hh]

theorem Arbiter.claim_desk (hb : a.barred p = false) (he : a.enabled[p] = true) (hh : a.holder = some .desk) :
    a.claim p = (a.setActive p true).join p := by
  simp only [claim_open hb he, hh]

theorem Arbiter.claim_port (hb : a.barred p = false) (he : a.enabled[p] = true) (hh : a.holder = some (.port q))
    (hq : q ≠ p) : a.claim p =
      if a.mode = .operatorFirst ∧ a.classes[p] = .operator ∧ a.classes[q] = .presenter then
        (a.setActive p true).yield.grant p
      else (a.setActive p true).join p := by
  simp only [claim_open hb he, hh, if_neg hq]

/-- The bars worked out again: barred ports leave the list (R120). -/
def Arbiter.unbar (a : Arbiter) : Arbiter := { a with joined := a.joined.filter (fun p => !a.barred p) }

theorem Arbiter.rebar_eq (a : Arbiter) : a.rebar = a.unbar.releaseIf a.barred := rfl

theorem Arbiter.unpin_none (h : a.pin = none) : a.unpin = a := by simp only [unpin, h]

theorem Arbiter.unpin_some (h : a.pin = some q) : a.unpin =
    ({ a with pin := none } : Arbiter).unbar.releaseIf
      (fun r => r = q && (!a.active[q] || ({ a with pin := none } : Arbiter).barred q)) := by
  simp only [unpin, h]
  rfl

end arbiter
end Sys2Proof.Machine

namespace Sys2Proof.Machine

/-! ### What every operation of the arbiter keeps (R119, R122)

The facts of `ArbiterInv` without the drive states, which `Arbiter.settle` works out afterwards. A release goes by the
waiting list alone, so what holds of the list is a part of its own. -/

/-- The list holds ENABLED, unbarred ports, each once. -/
structure Arbiter.Queued (a : Arbiter) : Prop where
  waiting : ∀ p : PortNo, p ∈ a.joined → a.enabled[p] = true ∧ a.barred p = false
  distinct : a.joined.Nodup

/-- The facts of an arbiter whose drive states are still to be worked out. -/
structure Arbiter.Sound (a : Arbiter) : Prop extends a.Queued where
  holder : ∀ p : PortNo, a.holder = some (.port p) → a.enabled[p] = true ∧ a.barred p = false ∧ p ∉ a.joined
  desk : a.holder = some .desk ↔ a.deskClaim = true
  free : a.holder = none → a.joined = []

section sound
variable {a b : Arbiter} {p q : PortNo}

theorem ArbiterInv.sound (h : ArbiterInv a) : a.Sound :=
  { waiting := h.waiting, distinct := h.distinct, holder := h.holder, desk := h.desk, free := h.free }

theorem Arbiter.Sound.settle (h : a.Sound) : ArbiterInv a.settle where
  states := a.settle_driveStates
  waiting := h.waiting
  distinct := h.distinct
  holder := h.holder
  desk := h.desk
  free := h.free

/-! The list -/

theorem Arbiter.Queued.leave (h : a.Queued) (p : PortNo) : (a.leave p).Queued where
  waiting q hq := h.waiting q (mem_leave.1 hq).1
  distinct := h.distinct.filter _

theorem Arbiter.Queued.join (h : a.Queued) (he : a.enabled[p] = true) (hb : a.barred p = false) :
    (a.join p).Queued := by
  by_cases hp : p ∈ a.joined
  · rwa [Arbiter.join, if_pos hp]
  · rw [join_new hp]
    exact {
      waiting := fun q hq => (List.mem_append.1 hq).elim (h.waiting q) fun e => by
        cases List.mem_singleton.1 e
        exact ⟨he, hb⟩
      distinct := List.concat_eq_append ▸ h.distinct.concat hp }

theorem Arbiter.Queued.grant (h : a.Queued) (he : a.enabled[p] = true) (hb : a.barred p = false)
    (hc : a.deskClaim = false) : (a.grant p).Sound where
  toQueued := ⟨(h.leave p).waiting, (h.leave p).distinct⟩
  holder q hq := by cases hq; exact ⟨he, hb, fun hm => (mem_leave.1 hm).2 rfl⟩
  desk := ⟨nofun, fun hd => absurd (hc.symm.trans hd) Bool.false_ne_true⟩
  free := nofun

/-! A loss of the drive -/

theorem Arbiter.Queued.grantNext (h : a.Queued) (hc : a.deskClaim = false) : a.grantNext.Sound := by
  unfold Arbiter.grantNext
  split
  · next q rest hw =>
    obtain ⟨he, hb⟩ := h.waiting q (mem_waiting.1 (hw ▸ List.mem_cons_self))
    exact h.grant he hb hc
  · next hw =>
    have hj : a.joined = [] := List.eq_nil_iff_forall_not_mem.2 fun p hp => by
      simpa [hw] using mem_waiting.2 hp
    exact {
      waiting := h.waiting
      distinct := h.distinct
      holder := nofun
      desk := ⟨nofun, fun hd => absurd (hc.symm.trans hd) Bool.false_ne_true⟩
      free := fun _ => hj }

/-- Whoever held the drive, a release leaves a holder that can hold, or none and nobody waiting (R125). -/
theorem Arbiter.Queued.release (h : a.Queued) : a.release.Sound := by
  by_cases hc : a.deskClaim = true
  · rw [release_desk hc]
    exact {
      waiting := h.waiting
      distinct := h.distinct
      holder := nofun
      desk := ⟨fun _ => hc, fun _ => rfl⟩
      free := nofun }
  rw [Bool.not_eq_true] at hc
  by_cases hp : ∃ p, a.pin = some p ∧ a.enabled[p] = true
  · obtain ⟨p, hp, he⟩ := hp
    rw [release_pinned hc hp he]
    exact h.grant he ((barred_of_pin hp).2 rfl) hc
  · rw [release_next hc fun p hpin => Bool.eq_false_iff.2 fun he => hp ⟨p, hpin, he⟩]
    exact h.grantNext hc

/-- The drive released by the test, or kept by a port that can hold it. -/
theorem Arbiter.Queued.releaseIf {test : PortNo → Bool} (h : a.Queued)
    (hk : ∀ q, a.holder = some (.port q) → test q = false → a.enabled[q] = true ∧ a.barred q = false ∧ q ∉ a.joined)
    (hd : a.holder = some .desk ↔ a.deskClaim = true) (hf : a.holder = none → a.joined = []) :
    (a.releaseIf test).Sound := by
  by_cases hp : ∃ q, a.holder = some (.port q)
  · obtain ⟨q, hq⟩ := hp
    rw [releaseIf_port _ hq]
    split
    · exact h.release
    · next ht =>
      exact {
        toQueued := h
        holder := fun r hr => by
          cases hq.symm.trans hr
          exact hk q hq (Bool.eq_false_iff.2 ht)
        desk := hd
        free := hf }
  · have hn : ∀ q, a.holder ≠ some (.port q) := fun q hq => hp ⟨q, hq⟩
    rw [releaseIf_other _ hn]
    exact { toQueued := h, holder := fun q hq => absurd hq (hn q), desk := hd, free := hf }

/-- The holder joins the list and nobody holds: only what the list says is left. -/
theorem Arbiter.Sound.yield_queued (h : a.Sound) : a.yield.Queued := by
  by_cases hp : ∃ q, a.holder = some (.port q)
  · obtain ⟨q, hq⟩ := hp
    obtain ⟨he, hb, -⟩ := h.holder q hq
    have hj := h.join he hb
    rw [yield_port hq]
    by_cases ha : a.active[q] = true
    · rw [join_eq] at hj
      simp only [if_pos ha, join_eq]
      exact ⟨hj.waiting, hj.distinct⟩
    · simp only [if_neg ha]
      exact ⟨h.waiting, h.distinct⟩
  · rw [yield_other fun q hq => hp ⟨q, hq⟩]
    exact h.toQueued

/-! A Claim (R123, R124) -/

/-- A change of what the facts do not go by. -/
theorem Arbiter.Sound.setActive (h : a.Sound) (p : PortNo) (x : Bool) : (a.setActive p x).Sound :=
  { waiting := h.waiting, distinct := h.distinct, holder := h.holder, desk := h.desk, free := h.free }

theorem Arbiter.Sound.noClaim_of_port (h : a.Sound) (hq : a.holder = some (.port q)) : a.deskClaim = false :=
  Bool.eq_false_iff.2 fun hd => nomatch hq.symm.trans (h.desk.2 hd)

theorem Arbiter.Sound.noClaim_of_free (h : a.Sound) (hn : a.holder = none) : a.deskClaim = false :=
  Bool.eq_false_iff.2 fun hd => nomatch hn.symm.trans (h.desk.2 hd)

/-- A port other than the holder joins while somebody holds. -/
theorem Arbiter.Sound.join (h : a.Sound) (he : a.enabled[p] = true) (hb : a.barred p = false)
    (hn : a.holder ≠ none) (hp : a.holder ≠ some (.port p)) : (a.join p).Sound := by
  have hj := h.toQueued.join he hb
  rw [join_eq] at hj ⊢
  exact {
    toQueued := hj
    holder := fun q hq => by
      obtain ⟨hqe, hqb, hqj⟩ := h.holder q hq
      refine ⟨hqe, hqb, fun hm => ?_⟩
      rcases mem_join.1 (join_eq a p ▸ hm) with hm | rfl
      · exact hqj hm
      · exact hp hq
    desk := h.desk
    free := fun e => absurd e hn }

theorem Arbiter.Sound.claim (h : a.Sound) (p : PortNo) : (a.claim p).Sound := by
  by_cases hn : a.barred p = true ∨ a.holder = some (.port p) ∨ a.enabled[p] = false
  · rw [claim_nothing hn]
    exact h.setActive p true
  obtain ⟨hb, hn⟩ := not_or.1 hn
  obtain ⟨hp, he⟩ := not_or.1 hn
  rw [Bool.not_eq_true] at hb
  rw [Bool.not_eq_false] at he
  have hs := h.setActive p true
  cases hh : a.holder with
  | none =>
    rw [claim_free hb he hh]
    exact hs.grant he hb (h.noClaim_of_free hh)
  | some x =>
    have hj : ((a.setActive p true).join p).Sound := hs.join he hb (fun e => nomatch hh.symm.trans e) hp
    cases x with
    | desk => rwa [claim_desk hb he hh]
    | port q =>
      rw [claim_port hb he hh fun e => hp (e ▸ hh)]
      split
      · have hy := hs.yield_queued
        rw [yield_port (a := a.setActive p true) hh] at hy ⊢
        exact hy.grant he hb (h.noClaim_of_port hh)
      · exact hj

/-! What a port sends else (R126, R127) -/

/-- A port leaves a list it has no need to stand in. -/
theorem Arbiter.Sound.leave (h : a.Sound) (p : PortNo) : (a.leave p).Sound where
  toQueued := h.toQueued.leave p
  holder q hq := by
    obtain ⟨he, hb, hj⟩ := h.holder q hq
    exact ⟨he, hb, fun hm => hj (mem_leave.1 hm).1⟩
  desk := h.desk
  free hn := by simp [Arbiter.leave, h.free hn]

theorem Arbiter.Sound.idle (h : a.Sound) (p : PortNo) : (a.idle p).Sound := by
  have hl := (h.setActive p false).leave p
  unfold Arbiter.idle
  dsimp only
  split
  · exact hl.release
  · exact hl

theorem Arbiter.Sound.enable (h : a.Sound) (p : PortNo) : (a.setEnabled p true).Sound where
  waiting q hq := ⟨by rw [setEnabled_enabled, (h.waiting q hq).1, ite_self], (h.waiting q hq).2⟩
  distinct := h.distinct
  holder q hq := by
    obtain ⟨he, hb, hj⟩ := h.holder q hq
    exact ⟨by rw [setEnabled_enabled, he, ite_self], hb, hj⟩
  desk := h.desk
  free := h.free

theorem Arbiter.Sound.ready (h : a.Sound) (p : PortNo) : (a.ready p).Sound := by
  have hs := (h.setActive p false).enable p
  unfold Arbiter.ready
  dsimp only
  split
  · next hg =>
    obtain ⟨hpin, hc, -⟩ := hg
    refine hs.grant ?_ ((barred_of_pin hpin).2 rfl) (by simpa using hc)
    rw [setEnabled_enabled, if_pos rfl]
  · exact hs

theorem Arbiter.Sound.gone (h : a.Sound) (p : PortNo) : (a.gone p).Sound := by
  have hl := (h.setActive p false).leave p
  have he (q : PortNo) (hq : q ≠ p) (he : a.enabled[q] = true) :
      ((a.setActive p false).setEnabled p false).enabled[q] = true := by
    rw [setEnabled_enabled, if_neg hq]
    exact he
  refine Arbiter.Queued.releaseIf ⟨fun q hq => ?_, hl.distinct⟩ (fun q hq ht => ?_) hl.desk hl.free
  · exact ⟨he q (mem_leave.1 hq).2 (hl.waiting q hq).1, (hl.waiting q hq).2⟩
  · obtain ⟨hqe, hqb, hqj⟩ := hl.holder q hq
    exact ⟨he q (of_decide_eq_false ht) hqe, hqb, hqj⟩

/-! The requests (R129 to R133) -/

theorem Arbiter.Sound.claimDesk (h : a.Sound) : a.claimDesk.Sound where
  waiting := h.yield_queued.waiting
  distinct := h.yield_queued.distinct
  holder := nofun
  desk := ⟨fun _ => rfl, fun _ => rfl⟩
  free := nofun

theorem Arbiter.Sound.releaseDesk (h : a.Sound) : ({ a with deskClaim := false } : Arbiter).release.Sound :=
  Arbiter.Queued.release ⟨h.waiting, h.distinct⟩

/-- New bars: `b` is a sound arbiter with another pin, mode or class. Barred ports leave the list, and the drive goes
from a holder that the test names, as it must name a barred one (R120). -/
theorem Arbiter.Sound.unbar_releaseIf {test : PortNo → Bool} (h : a.Sound)
    (ht : ∀ q, b.holder = some (.port q) → test q = false → b.barred q = false)
    (he : b.enabled = a.enabled := by rfl) (hh : b.holder = a.holder := by rfl) (hj : b.joined = a.joined := by rfl)
    (hc : b.deskClaim = a.deskClaim := by rfl) : (b.unbar.releaseIf test).Sound := by
  have hmem (q : PortNo) : q ∈ b.unbar.joined ↔ q ∈ a.joined ∧ b.barred q = false := by simp [unbar, hj]
  refine Arbiter.Queued.releaseIf ⟨fun q hq => ?_, ?_⟩ (fun q hq hf => ?_) ?_ fun hn => ?_
  · obtain ⟨hm, hb⟩ := (hmem q).1 hq
    exact ⟨he ▸ (h.waiting q hm).1, hb⟩
  · exact (hj ▸ h.distinct : b.joined.Nodup).filter _
  · obtain ⟨hqe, -, hqj⟩ := h.holder q (hh ▸ hq)
    exact ⟨he ▸ hqe, ht q hq hf, fun hm => hqj ((hmem q).1 hm).1⟩
  · exact hh ▸ hc ▸ h.desk
  · simp [unbar, hj, h.free (hh ▸ hn)]

theorem Arbiter.Sound.rebar (h : a.Sound) (he : b.enabled = a.enabled := by rfl) (hh : b.holder = a.holder := by rfl)
    (hj : b.joined = a.joined := by rfl) (hc : b.deskClaim = a.deskClaim := by rfl) : b.rebar.Sound :=
  b.rebar_eq ▸ h.unbar_releaseIf (fun _ _ hb => hb) he hh hj hc

/-- The pin has barred every holder but its own port, which keeps the drive only unbarred. -/
theorem Arbiter.Sound.unpin (h : a.Sound) : a.unpin.Sound := by
  cases hp : a.pin with
  | none => rwa [unpin_none hp]
  | some old =>
    rw [unpin_some hp]
    refine h.unbar_releaseIf fun q hq ht => ?_
    have hold : q = old := (barred_of_pin hp).1 (h.holder q hq).2.1
    subst hold
    simp only [decide_true, Bool.true_and, Bool.or_eq_false_iff] at ht
    exact ht.2

theorem Arbiter.Sound.setPin (h : a.Sound) (p : PortNo) : (a.setPin p).Sound := by
  have hq : ({ a with pin := some p, joined := a.joined.filter (· = p) } : Arbiter).Queued := by
    refine ⟨fun q hq => ?_, h.distinct.filter _⟩
    obtain ⟨hm, hqp⟩ := List.mem_filter.1 hq
    exact ⟨(h.waiting q hm).1, (barred_of_pin rfl).2 (of_decide_eq_true hqp)⟩
  unfold Arbiter.setPin
  dsimp only
  split
  · next hc =>
    have hd := h.desk.2 hc
    exact {
      toQueued := hq
      holder := fun q hh => nomatch hd.symm.trans hh
      desk := h.desk
      free := fun hn => nomatch hd.symm.trans hn }
  · next hc =>
    split
    · next he => exact hq.grant he ((barred_of_pin rfl).2 rfl) (Bool.not_eq_true _ ▸ hc)
    · exact hq.releaseIf (fun _ _ ht => absurd ht.symm Bool.false_ne_true) h.desk fun hn => by simp [h.free hn]

theorem Arbiter.Sound.movePin (h : a.Sound) (x : Option PortNo) : (a.movePin x).Sound := by
  cases x with
  | none => exact h.unpin
  | some p => exact h.unpin.setPin p

/-! Resets (R136, R137) -/

theorem Arbiter.portsReset_sound (a : Arbiter) : a.portsReset.Sound where
  waiting := nofun
  distinct := List.nodup_nil
  holder q hq := by
    unfold portsReset at hq
    dsimp only at hq
    split at hq <;> cases hq
  desk := by
    unfold portsReset
    dsimp only
    cases a.deskClaim <;> simp
  free _ := rfl

theorem Arbiter.motionReset_sound (a : Arbiter) : a.motionReset.Sound where
  waiting := nofun
  distinct := List.nodup_nil
  holder := nofun
  desk := ⟨nofun, nofun⟩
  free _ := rfl

theorem Arbiter.Sound.scopeReset (h : a.Sound) (x : Scope) : (a.scopeReset x).Sound := by
  unfold Arbiter.scopeReset
  split
  · exact reset_arbiterInv.sound
  · dsimp only
    split
    · exact portsReset_sound _
    · split
      · exact motionReset_sound _
      · exact h

theorem ArbiterInv.afterReset (h : ArbiterInv a) (x : Scope) : ArbiterInv (a.afterReset x) := by
  unfold Arbiter.afterReset
  split
  · exact (h.sound.scopeReset x).settle
  · exact h

end sound
end Sys2Proof.Machine

namespace Sys2Proof.Machine

/-! ### Every command keeps the facts of the arbiter -/

section keeps
variable {s t : State}

/-- The facts of the arbiter in a state. -/
def DriveInv (s : State) : Prop := ArbiterInv s.arbiter

theorem DriveInv.of_arbiter (h : DriveInv s) (e : t.arbiter = s.arbiter := by rfl) : DriveInv t :=
  show ArbiterInv t.arbiter from e.symm ▸ h

theorem putArbiter_arbiter (b : Arbiter) : (putArbiter b s).arbiter = b.settle := by rw [putArbiter_eq]; rfl

theorem DriveInv.arbiterEvent {f : Arbiter → Arbiter} (h : DriveInv s) (hf : ∀ {a}, a.Sound → (f a).Sound) :
    DriveInv (arbiterEvent f s) :=
  show ArbiterInv (putArbiter _ _).arbiter from putArbiter_arbiter (s := s) _ ▸ (hf h.sound).settle

/-- An event keeps what its work keeps. -/
theorem DriveInv.event {req : Bool} {f : State → State} (h : DriveInv s) (hf : ∀ u, DriveInv u → DriveInv (f u)) :
    DriveInv (event req f s) :=
  (hf (s.withCause req) h.of_arbiter).of_arbiter (by simp [Machine.event])

/-- A port's message to the arbiter. -/
theorem DriveInv.takePortMsg {want : PortMsg → Option Unit} {p : PortNo} {f : Arbiter → Arbiter} (h : DriveInv s)
    (hf : ∀ {a}, a.Sound → (f a).Sound) : DriveInv (takePortMsg p want (fun _ => Machine.arbiterEvent f) s) := by
  unfold Machine.takePortMsg takeHead
  split
  · split
    · exact DriveInv.event h.of_arbiter fun _ hu => hu.arbiterEvent hf
    · exact h
  · exact h

/-- A request of the arbiter. -/
theorem DriveInv.request {meant : Request → Bool} {owner : List Byte → State → Answer} (h : DriveInv s)
    (ho : ∀ {u} b, DriveInv u → DriveInv (owner b u).state) : DriveInv (runRequestIf meant owner s) := by
  obtain hb | ⟨r, hb⟩ := runRequestIf_blocks (ps := []) meant owner s
  · exact h.of_arbiter (hb.arbiter (by simp))
  · exact (ho r.body (h.of_arbiter (t := s.withCause true))).of_arbiter (hb.arbiter (by simp))

theorem claimDrive_driveInv (b : List Byte) (h : DriveInv s) : DriveInv (claimDrive b s).state := by
  show DriveInv (ite _ _ _)
  split
  · exact h
  · exact h.arbiterEvent Arbiter.Sound.claimDesk

theorem releaseDrive_driveInv (b : List Byte) (h : DriveInv s) : DriveInv (releaseDrive b s).state := by
  unfold releaseDrive
  split
  · exact h.arbiterEvent Arbiter.Sound.releaseDesk
  · exact h

theorem pinTo_driveInv (x : Option PortNo) (h : DriveInv s) : DriveInv (pinTo x s) := by
  unfold pinTo
  split
  · exact h
  · exact h.arbiterEvent fun ha => ha.movePin x

theorem pinDrive_driveInv (b : List Byte) (h : DriveInv s) : DriveInv (pinDrive b s).state := by
  unfold pinDrive withFour
  split
  · exact pinTo_driveInv _ h
  · split
    · exact pinTo_driveInv _ h
    · exact h

theorem setDriveMode_driveInv (b : List Byte) (h : DriveInv s) : DriveInv (setDriveMode b s).state := by
  unfold setDriveMode
  split
  · show DriveInv (ite _ _ _)
    split
    · exact h
    · exact h.arbiterEvent fun ha => ha.rebar
  · exact h

theorem setPortClass_driveInv (b : List Byte) (h : DriveInv s) : DriveInv (setPortClass b s).state := by
  unfold setPortClass withFour
  split
  · split
    · show DriveInv (ite _ _ _)
      split
      · exact h
      · exact h.arbiterEvent fun ha => ha.rebar
    · exact h
  · exact h

/-- Resets (R136, R137). -/
theorem takeReset_arbiter (x : Scope) : (takeReset x s).arbiter = s.arbiter.afterReset x := by
  have hl : (takeReset x s).arbiter = (resetBlocks x (finishCueWork s)).arbiter :=
    (SameBlocks.ite (blocks_withLink _) ((blocks_withLink _).trans blocks_transmitNext)).arbiter (ps := []) (by simp)
  rw [hl, resetBlocks_eq, blocks_finishCueWork.arbiter (by decide)]

theorem takeReset_driveInv (x : Scope) (h : DriveInv s) : DriveInv (takeReset x s) :=
  show ArbiterInv (takeReset x s).arbiter from takeReset_arbiter x ▸ h.afterReset x

/-- Every command keeps the facts of the arbiter. -/
theorem exec_driveInv (c : Instr) (h : DriveInv s) : Ends (exec c s) DriveInv := by
  by_cases hc : .arbiter ∉ touches c
  · have hb := exec_blocks c (s := s)
    cases ho : exec c s with
    | next t => exact h.of_arbiter ((hb.next ho).arbiter hc)
    | fault | refused => rw [ho] at hb; exact hb
  cases c with
  | powerOnReset a b => exact reset_arbiterInv
  | resetTakesEffect =>
    show DriveInv _
    split
    · split
      · exact h.event fun _ => takeReset_driveInv _
      · exact h
    · exact h
  | setDriveMode => exact h.request setDriveMode_driveInv
  | setPortClass => exact h.request setPortClass_driveInv
  | pinDrive => exact h.request pinDrive_driveInv
  | claimDrive => exact h.request claimDrive_driveInv
  | releaseDrive => exact h.request releaseDrive_driveInv
  | claim p => exact h.takePortMsg fun ha => ha.claim p
  | idle p => exact h.takePortMsg fun ha => ha.idle p
  | portReady p => exact h.takePortMsg fun ha => ha.ready p
  | portGone p => exact h.takePortMsg fun ha => ha.gone p
  | _ => simp [touches] at hc

/-- Settles O16: every operation keeps the facts that the arbiter goes by, and the drive states are worked out from them
whenever it changes. -/
theorem arbiterKept : Obligations.ArbiterKept :=
  kept_of_exec (P := DriveInv) (fun c _ => exec_driveInv c) (fun _ _ h => h.of_arbiter) fun _ h => h.of_arbiter

end keeps
end Sys2Proof.Machine

namespace Sys2Proof.Machine

/-! ### A changed arbiter in force (R119 to R121, R134) -/

theorem bars_claim : Claims.Bars := fun _ _ => Arbiter.barred_iff

theorem changedArbiter_claim : Claims.ChangedArbiter := by
  intro b s
  dsimp only
  rw [putArbiter_eq]
  refine ⟨fun p => b.settle_driveStates p, rfl, fun p => ?_, rfl, ?_⟩
  · exact Vector.getElem_ofFn _
  · have hd : driveChanged s.arbiter b.settle = false ↔ s.arbiter.holder = b.holder ∧
        s.arbiter.heldClass = b.heldClass ∧ s.arbiter.pin = b.pin ∧ s.arbiter.mode = b.mode := driveChanged_iff _ _
    show (if driveChanged s.arbiter b.settle = true then _ else _) = _
    cases hc : driveChanged s.arbiter b.settle with
    | false => exact (if_pos (hd.1 hc)).symm
    | true => exact (if_neg fun h => Bool.false_ne_true ((hd.2 h).symm.trans hc)).symm

/-- Settles O48, by what `putArbiter` replaces. -/
theorem arbiterConsequences : Obligations.ArbiterConsequences := ⟨bars_claim, changedArbiter_claim⟩

/-! ### What the ports send (R123 to R127) -/

section messages
variable {s : State} {p : PortNo} {req : Bool} {rest : List (Msg PortMsg)}

/-- The oldest message of a port is the one meant: its event runs. -/
theorem takePortMsg_head {β : Type} {want : PortMsg → Option β} {f : β → State → State} {m : PortMsg} {x : β}
    (hm : s.mail.toArbiter[p] = { req := req, body := m } :: rest) (hw : want m = some x) :
    takePortMsg p want f s = event req (f x)
      (s.withMail { s.mail with toArbiter := s.mail.toArbiter.set p.val rest p.isLt }) := by
  rw [takePortMsg, hm]
  exact takeHead_some hw

/-- A message that changes the arbiter, by what it makes of it. -/
theorem takePortMsg_arbiter {m : PortMsg} {f : Arbiter → Arbiter} {b : Arbiter}
    (hm : s.mail.toArbiter[p] = { req := req, body := m } :: rest) (hb : f s.arbiter = b) :
    ran (takePortMsg p (PortMsg.isMsg m) (fun _ => arbiterEvent f) s) = .next (sendIfIdle ((putArbiter b
      ((s.withMail { s.mail with toArbiter := s.mail.toArbiter.set p.val rest p.isLt }).withCause req)).withCause
      false)) := by
  rw [takePortMsg_head hm (if_pos rfl), ← hb]
  rfl

/-- Settles O49, by the holder that the Claim finds. -/
theorem claimGrantsOrWaits : Obligations.ClaimGrantsOrWaits := by
  intro s p req rest hm hi
  dsimp only
  have exec_claim {b : Arbiter} (hb : s.arbiter.claim p = b) := takePortMsg_arbiter (f := (·.claim p)) hm hb
  refine ⟨fun h => exec_claim (Arbiter.claim_nothing h), fun hb he hh => exec_claim ?_,
    fun hb he hh => exec_claim ?_, fun q hb he hh hqp => ⟨fun hmode hp hq => exec_claim ?_, fun hn => exec_claim ?_⟩⟩
  · exact (Arbiter.claim_free hb he hh).trans (Arbiter.grant_free (hi.free hh))
  · exact (Arbiter.claim_desk hb he hh).trans (Arbiter.join_eq _ _)
  · obtain ⟨-, -, hj⟩ := hi.holder q hh
    have ha : (s.arbiter.setActive p true).active[q] = s.arbiter.active[q] := Arbiter.setActive_active_other hqp
    have hy := Arbiter.yield_port (a := s.arbiter.setActive p true) hh
    rw [Arbiter.join_new (a := s.arbiter.setActive p true) hj, ha] at hy
    rw [Arbiter.claim_port hb he hh hqp, if_pos ⟨hmode, hp, hq⟩, hy]
    rfl
  · exact (Arbiter.claim_port hb he hh hqp).trans ((if_neg hn).trans (Arbiter.join_eq _ _))

theorem release_claim : Claims.Release := by
  intro a
  refine ⟨Arbiter.release_desk, fun p hc hp he => Arbiter.release_pinned hc hp he,
    fun hc hp => ⟨fun q hq => ?_, fun hj => ?_⟩⟩
  · rw [Arbiter.release_next hc hp]
    exact Arbiter.grantNext_head hq
  · rw [Arbiter.release_next hc hp]
    exact Arbiter.grantNext_none hj

theorem Arbiter.ready_eq (a : Arbiter) (p : PortNo) : a.ready p =
    if a.pin = some p ∧ a.deskClaim = false ∧ a.holder = none then ((a.setActive p false).setEnabled p true).grant p
    else (a.setActive p false).setEnabled p true :=
  if_congr (by rw [Bool.not_eq_true']; rfl) rfl rfl

theorem Arbiter.gone_eq (a : Arbiter) (p : PortNo) : a.gone p =
    if a.holder = some (.port p) then (((a.setActive p false).setEnabled p false).leave p).release
    else ((a.setActive p false).setEnabled p false).leave p := by
  have hh : (((a.setActive p false).setEnabled p false).leave p).holder = a.holder := rfl
  show Arbiter.releaseIf _ _ = _
  by_cases hp : ∃ q, a.holder = some (.port q)
  · obtain ⟨q, hq⟩ := hp
    rw [releaseIf_port _ (hh.trans hq), hq]
    simp
  · rw [releaseIf_other _ fun q hq => hp ⟨q, hh ▸ hq⟩, if_neg fun h => hp ⟨p, h⟩]

/-- The holder's input is told from the port's other messages (R126). -/
theorem passHolderInput_head {m : PortMsg} {x : HolderInput}
    (hm : s.mail.toArbiter[p] = { req := req, body := m } :: rest) (hx : m.asInput = some x) :
    exec (.passHolderInput p) s = .next (event req (passInput p x)
      (s.withMail { s.mail with toArbiter := s.mail.toArbiter.set p.val rest p.isLt })) :=
  congrArg Host.Outcome.next (takePortMsg_head hm hx)

theorem portMessages_claim : Claims.PortMessages := by
  intro s p req rest
  dsimp only
  refine ⟨fun hm => takePortMsg_arbiter (f := (·.idle p)) hm rfl,
    fun hm => takePortMsg_arbiter (f := (·.ready p)) hm (Arbiter.ready_eq _ _),
    fun hm => takePortMsg_arbiter (f := (·.gone p)) hm (Arbiter.gone_eq _ _), fun m x hmx hm => ?_⟩
  have hx : m.asInput = some x := by
    rcases hmx with h | ⟨v, rfl, rfl⟩ | ⟨d, rfl, rfl⟩
    · cases List.mem_singleton.1 h
      rfl
    · rfl
    · rfl
  exact passHolderInput_head hm hx

/-- Settles O50: the release by who stands first in line, and each message by what it makes of the arbiter. -/
theorem portMessagesAndRelease : Obligations.PortMessagesAndRelease := ⟨release_claim, portMessages_claim⟩

end messages
end Sys2Proof.Machine

namespace Sys2Proof.Machine

/-! ### The requests of the arbiter (R129 to R133, R135) -/

section requests
variable {s : State} {a : Arbiter} {p q : PortNo}

theorem putArbiter_requests (b : Arbiter) : (putArbiter b s).link.requests = s.link.requests := by
  rw [putArbiter_eq, State.withLink_link]
  split
  · exact LinkController.raise_requests _ _
  · rfl

theorem putArbiter_replies (b : Arbiter) : (putArbiter b s).link.replies = s.link.replies := by
  rw [putArbiter_eq, State.withLink_link]
  split
  · exact LinkController.raise_replies _ _
  · rfl

/-- A request that its owner carries out by a change of the arbiter. -/
theorem runRequest_arbiter {n : Nat} {owner : List Byte → State → Answer} {kind : Byte} {body : List Byte} {b : Arbiter}
    (h : Serving s kind body) (hk : kind.toNat = n)
    (ha : owner body (s.withCause true) = done [] (putArbiter b (s.withCause true))) :
    ran (runRequest n owner s) = .next (answered s .done [] (putArbiter b (s.withCause true))) :=
  congrArg Host.Outcome.next
    (runRequest_answered h hk ha (done_plain _ _) (putArbiter_requests _) (putArbiter_replies _))

/-- A request that finds in force already what it asks for. -/
theorem runRequest_unchanged {n : Nat} {owner : List Byte → State → Answer} {kind : Byte} {body : List Byte}
    (h : Serving s kind body) (hk : kind.toNat = n) (ha : owner body (s.withCause true) = done [] (s.withCause true)) :
    ran (runRequest n owner s) = .next (answered s .done [] s) :=
  congrArg Host.Outcome.next (runRequest_done h hk ha rfl rfl)

/-! Claim Drive and Release Drive -/

theorem deskRequests_claim : Claims.DeskRequests := by
  intro s
  refine ⟨fun h => ⟨fun hd => ?_, fun hd hq => ?_, fun q hd hq hj => ?_⟩, fun h => ⟨fun hd => ?_, fun hd => ?_⟩⟩
  · exact runRequest_unchanged h rfl (congrArg (done []) (if_pos hd))
  · have hy : s.arbiter.claimDesk = { s.arbiter with deskClaim := true, holder := some .desk } := by
      rw [Arbiter.claimDesk, Arbiter.yield_other hq]
    rw [← hy]
    exact runRequest_arbiter h rfl (congrArg (done []) (if_neg (Bool.eq_false_iff.1 hd)))
  · have hy : s.arbiter.claimDesk = { s.arbiter with
        deskClaim := true, holder := some .desk
        joined := if s.arbiter.active[q] then s.arbiter.joined ++ [q] else s.arbiter.joined } := by
      rw [Arbiter.claimDesk, Arbiter.yield_port hq, Arbiter.join_new hj]
    rw [← hy]
    exact runRequest_arbiter h rfl (congrArg (done []) (if_neg (Bool.eq_false_iff.1 hd)))
  · exact congrArg Host.Outcome.next (runRequest_refused h rfl (if_neg (Bool.eq_false_iff.1 hd)))
  · exact runRequest_arbiter h rfl (if_pos hd)

/-! New bars (R120, R131 to R133) -/

theorem Arbiter.unbar_eq (a : Arbiter) :
    a.unbar = { a with joined := a.joined.filter (fun p => a.barred p = false) } := by
  unfold unbar
  congr 2
  funext p
  cases a.barred p <;> rfl

theorem Arbiter.rebar_match (a : Arbiter) : a.rebar =
    (let y : Arbiter := { a with joined := a.joined.filter (fun p => a.barred p = false) }
     match a.holder with
     | some (.port q) => if a.barred q then y.release else y
     | _ => y) := by
  rw [← unbar_eq]
  rfl

/-- The old pin's port keeps the drive only while active and not barred (R131). -/
theorem Arbiter.unpin_eq {old : PortNo} (h : a.pin = some old) : a.unpin =
    (let x : Arbiter := { a with pin := none }
     let y : Arbiter := { x with joined := x.joined.filter (fun p => x.barred p = false) }
     if a.holder = some (.port old) ∧ (a.active[old] = false ∨ y.barred old = true) then y.release else y) := by
  rw [unpin_some h, unbar_eq]
  dsimp only
  by_cases hp : ∃ q, a.holder = some (.port q)
  · obtain ⟨q, hq⟩ := hp
    have hold : a.holder = some (.port old) ↔ q = old := by rw [hq]; simp
    rw [releaseIf_port (q := q)]
    · refine if_congr ?_ rfl rfl
      simp only [Bool.and_eq_true, decide_eq_true_eq, Bool.or_eq_true, Bool.not_eq_true', hold]
      exact Iff.rfl
    · exact hq
  · rw [releaseIf_other]
    · exact (if_neg fun hc => hp ⟨old, hc.1⟩).symm
    · exact fun q hq => hp ⟨q, hq⟩

theorem Arbiter.setPin_eq (a : Arbiter) (p : PortNo) : a.setPin p =
    (let y : Arbiter := { a with pin := some p, joined := a.joined.filter (· = p) }
     if a.deskClaim then y
     else if a.enabled[p] then { y with holder := some (.port p), joined := [] }
     else y.releaseIf (fun _ => true)) := by
  have hj : (a.joined.filter (· = p)).filter (· ≠ p) = [] := by simp [List.filter_filter]
  unfold setPin grant leave
  simp only [hj]

/-! Pin Drive -/

theorem pinTo_same {x : Option PortNo} (h : s.arbiter.pin = x) : pinTo x s = s := if_pos h

theorem pinTo_other {x : Option PortNo} (h : s.arbiter.pin ≠ x) : pinTo x s = putArbiter (s.arbiter.movePin x) s :=
  if_neg h

/-- The pin field: none, a port, or neither (R131). -/
theorem pinDrive_none {body : List Byte} (h : u8 body 0 = 0xFF) : pinDrive body s = done [] (pinTo none s) := if_pos h

theorem pinDrive_port {body : List Byte} (h : u8 body 0 = p.val) : pinDrive body s = done [] (pinTo (some p) s) :=
  (if_neg (by omega)).trans (withFour_port h _ _)

theorem pinDrive_range {body : List Byte} (h : 4 ≤ u8 body 0) (hn : u8 body 0 ≠ 0xFF) :
    pinDrive body s = refuse .range s :=
  (if_neg hn).trans (withFour_range h _ _)

/-- A pin that changes: the arbiter it leads to. -/
theorem exec_pinDrive {body : List Byte} {x : Option PortNo} {b : Arbiter} (h : Serving s 0x42 body)
    (hx : pinDrive body (s.withCause true) = done [] (pinTo x (s.withCause true))) (hn : s.arbiter.pin ≠ x)
    (hb : s.arbiter.movePin x = b) :
    exec .pinDrive s = .next (answered s .done [] (putArbiter b (s.withCause true))) :=
  runRequest_arbiter h rfl (hx.trans (congrArg (done []) ((pinTo_other (s := s.withCause true) hn).trans
    (congrArg (putArbiter · (s.withCause true)) hb))))

/-- The pin in force already. -/
theorem exec_pinDrive_same {body : List Byte} {x : Option PortNo} (h : Serving s 0x42 body)
    (hx : pinDrive body (s.withCause true) = done [] (pinTo x (s.withCause true))) (hn : s.arbiter.pin = x) :
    exec .pinDrive s = .next (answered s .done [] s) :=
  runRequest_unchanged h rfl (hx.trans (congrArg (done []) (pinTo_same (s := s.withCause true) hn)))

/-! Set Drive Mode and Set Port Class -/

theorem setDriveMode_some {body : List Byte} {m : DriveMode} (h : DriveMode.ofCode (u8 body 0) = some m) :
    setDriveMode body s = done [] (if s.arbiter.mode = m then s
      else putArbiter ({ s.arbiter with mode := m } : Arbiter).rebar s) := by
  simp only [setDriveMode, h]
  rfl

theorem setPortClass_some {body : List Byte} {c : PortClass} (h : u8 body 0 = p.val)
    (hc : PortClass.ofCode (u8 body 1) = some c) : setPortClass body s =
      done [] (if s.arbiter.classes[p] = c then s
        else putArbiter ({ s.arbiter with classes := s.arbiter.classes.set p.val c p.isLt } : Arbiter).rebar s) := by
  refine (withFour_port h _ _).trans ?_
  simp only [hc]
  rfl

theorem setPortClass_range {body : List Byte} (h : 4 ≤ u8 body 0 ∨ PortClass.ofCode (u8 body 1) = none) :
    setPortClass body s = refuse .range s := by
  by_cases h4 : 4 ≤ u8 body 0
  · exact withFour_range h4 _ _
  · obtain ⟨p, hp⟩ := port_of_field h4
    refine (withFour_port hp _ _).trans ?_
    simp only [h.resolve_left h4]

theorem driveSettings_claim : Claims.DriveSettings := by
  intro s body
  dsimp only
  refine ⟨fun h => ⟨fun h4 hn => ?_, fun hx hp => ?_, fun old hx hp => ?_, fun p hx => ⟨fun hp => ?_, fun hp => ?_,
      fun old hp hne => ?_⟩⟩,
    fun h => ⟨fun hm => ?_, fun hm => ?_, fun m hm hne => ?_⟩,
    fun h => ⟨fun hr => ?_, fun p c hp hc => ⟨fun he => ?_, fun hne => ?_⟩⟩⟩
  · exact congrArg Host.Outcome.next (runRequest_refused h rfl (pinDrive_range h4 hn))
  · exact exec_pinDrive_same h (pinDrive_none hx) hp
  · exact exec_pinDrive h (pinDrive_none hx) (fun e => nomatch hp.symm.trans e) (Arbiter.unpin_eq hp)
  · exact exec_pinDrive_same h (pinDrive_port hx) hp
  · refine exec_pinDrive h (pinDrive_port hx) (fun e => nomatch hp.symm.trans e) ?_
    rw [Arbiter.movePin, Arbiter.unpin_none hp]
    exact Arbiter.setPin_eq _ _
  · refine exec_pinDrive h (pinDrive_port hx) (fun e => hne (Option.some.inj (hp.symm.trans e))) ?_
    rw [Arbiter.movePin, Arbiter.unpin_eq hp]
    exact Arbiter.setPin_eq _ _
  · refine congrArg Host.Outcome.next (runRequest_refused h rfl ?_)
    simp only [setDriveMode, hm]
  · exact runRequest_unchanged h rfl ((setDriveMode_some hm).trans (congrArg (done []) (if_pos rfl)))
  · refine runRequest_arbiter h rfl ((setDriveMode_some hm).trans (congrArg (done []) ((if_neg hne.symm).trans ?_)))
    exact congrArg (putArbiter · (s.withCause true)) (Arbiter.rebar_match _)
  · exact congrArg Host.Outcome.next (runRequest_refused h rfl (setPortClass_range hr))
  · exact runRequest_unchanged h rfl ((setPortClass_some hp hc).trans (congrArg (done []) (if_pos he.symm)))
  · refine runRequest_arbiter h rfl ((setPortClass_some hp hc).trans (congrArg (done []) ((if_neg (Ne.symm hne)).trans ?_)))
    exact congrArg (putArbiter · (s.withCause true)) (Arbiter.rebar_match _)

/-- Settles O51: each request by the arbiter that it leads to, put in force. -/
theorem driveRequests : Obligations.DriveRequests := ⟨deskRequests_claim, driveSettings_claim⟩

/-! ### Query Drive (R135) -/

/-- Settles O52: the reply is read off the arbiter, which stays as it is. -/
theorem queryDrive_answers : Obligations.QueryDrive := by
  intro s
  refine ⟨fun h => congrArg Host.Outcome.next (runRequest_done h rfl rfl rfl rfl), fun r rest hr hk hb ht => ?_⟩
  refine congrArg Host.Outcome.next (runRequestIf_malformed hr (by rw [hk]; rfl) ht ?_)
  rw [hk]
  exact fun e => hb (List.length_eq_zero_iff.1 (Option.some.inj e).symm)

end requests
end Sys2Proof.Machine

namespace Sys2Proof.Machine

/-! ### Every command keeps the facts of the Frame Clock (R155 to R160) -/

section clockInv
variable {c : FrameClock} {s t : State}

theorem ClockInv.start (h : ClockInv c) (now : Nat) : ClockInv (c.start now) :=
  ⟨h.period, h.trim, h.goodRun, h.flywheel, h.mode⟩

theorem ClockInv.withFlywheel (h : ClockInv c) {n : Nat} (hn : n ≤ 2) : ClockInv { c with flywheel := n } :=
  ⟨h.period, h.trim, h.goodRun, hn, h.mode⟩

theorem ClockInv.withEvent (h : ClockInv c) (e : Option RefEvent) : ClockInv { c with event := e } :=
  ⟨h.period, h.trim, h.goodRun, h.flywheel, h.mode⟩

/-- A pulse is noted; the run it makes is one of good pulses, and below 2 but in LOCKED. -/
theorem ClockInv.pulse (h : ClockInv c) (now : Nat) {run : Nat} (hr : run ≤ 2 ∧ (c.lock ≠ .locked → run ≤ 1)) :
    ClockInv { c with lastPulse := some now, goodRun := run } :=
  ⟨h.period, h.trim, hr, h.flywheel, h.mode⟩

/-- Period and trim within their bounds. -/
theorem ClockInv.retimed (h : ClockInv c) {period : Nat} {trim : Int} (hp : 8000 ≤ period ∧ period ≤ 42000)
    (ht : -128 ≤ trim ∧ trim ≤ 127) : ClockInv { c with period := period, trim := trim } :=
  ⟨hp, ht, h.goodRun, h.flywheel, h.mode⟩

/-- A new lock state with the reference record forgotten. -/
theorem ClockInv.relocked (h : ClockInv c) {m : RefMode} {l : LockState} (hl : l = .free ↔ m = .free) :
    ClockInv { c.forget with mode := m, lock := l } :=
  ⟨h.period, h.trim, ⟨Nat.zero_le _, fun _ => Nat.zero_le _⟩, Nat.zero_le _, hl⟩

theorem ClockInv.leaveLocked (h : ClockInv c) (was : LockState) : ClockInv (c.leaveLocked was) := by
  unfold FrameClock.leaveLocked
  split
  · exact ⟨h.period, h.trim, h.goodRun, h.flywheel, h.mode⟩
  · exact h

theorem ClockInv.setFrame (h : ClockInv c) {period : Nat} {trim : Int} (hp : 8000 ≤ period ∧ period ≤ 42000)
    (ht : -128 ≤ trim ∧ trim ≤ 127) : ClockInv (c.setFrame period trim) := by
  have hc := h.retimed hp ht
  unfold FrameClock.setFrame
  dsimp only
  split
  · exact hc
  case isFalse hn =>
    exact (hc.relocked (m := c.mode) (l := .hunting) ⟨nofun, fun hm => absurd (.inr hm) hn⟩).leaveLocked _

theorem ClockInv.setMode (h : ClockInv c) (m : RefMode) : ClockInv (c.setMode m) := by
  unfold FrameClock.setMode
  split
  · exact h
  · cases m with
    | lock => exact h.relocked ⟨nofun, nofun⟩
    | free => exact (h.relocked (m := .free) (l := .free) ⟨fun _ => rfl, fun _ => rfl⟩).leaveLocked _

/-- The facts of the clock in a state. -/
def Clocked (s : State) : Prop := ClockInv s.clock

theorem Clocked.of_clock (h : Clocked s) (e : t.clock = s.clock := by rfl) : Clocked t :=
  show ClockInv t.clock from e.symm ▸ h

/-- An event keeps what its work keeps. -/
theorem Clocked.event {req : Bool} {f : State → State} (h : Clocked s) (hf : ∀ u, Clocked u → Clocked (f u)) :
    Clocked (event req f s) :=
  (hf (s.withCause req) h.of_clock).of_clock (by simp [Machine.event])

/-- A request of the clock. -/
theorem Clocked.request {meant : Request → Bool} {owner : List Byte → State → Answer} (h : Clocked s)
    (ho : ∀ {u} b, Clocked u → Clocked (owner b u).state) : Clocked (runRequestIf meant owner s) := by
  obtain hb | ⟨r, hb⟩ := runRequestIf_blocks (ps := []) meant owner s
  · exact h.of_clock (hb.clock (by simp))
  · exact (ho r.body (h.of_clock (t := s.withCause true))).of_clock (hb.clock (by simp))

theorem Clocked.frameStart (h : Clocked s) : Clocked (frameStart s) := ClockInv.start h s.now

theorem Clocked.lockedPulse (h : Clocked s) : Clocked (lockedPulse s) := by
  unfold Machine.lockedPulse
  split
  · exact ClockInv.withFlywheel h.frameStart (Nat.zero_le _)
  · exact h

/-- The run of a HUNTING or LOST clock goes to 2 only by LOCKED (R159). -/
theorem Clocked.huntingPulse (h : Clocked s) (hl : s.clock.lock ≠ .locked) (hm : s.clock.mode = .lock) :
    Clocked (huntingPulse s) := by
  have hrun : s.clock.goodRun ≤ 1 := h.goodRun.2 hl
  unfold Machine.huntingPulse
  dsimp only
  split
  · exact ClockInv.pulse h _ h.goodRun
  · next last _ =>
    generalize hg : (if s.clock.good last s.now = true then s.clock.goodRun + 1 else 0) = run
    have hle : run ≤ 2 := by rw [← hg]; split <;> omega
    split
    · have locked (e : Option RefEvent) : ClockInv { s.clock with
          lastPulse := some s.now, goodRun := run, lock := .locked, flywheel := 0, event := e } :=
        ⟨h.period, h.trim, ⟨hle, fun hne => absurd rfl hne⟩, Nat.zero_le _, ⟨nofun, fun hf => nomatch hm.symm.trans hf⟩⟩
      split
      · exact Clocked.lockedPulse (s := raise .reference _) (locked _)
      · exact Clocked.lockedPulse (s := s.withClock _) (locked _)
    case isFalse hne => exact ClockInv.pulse h _ ⟨hle, fun _ => by omega⟩

theorem Clocked.takePulse (h : Clocked s) : Clocked (takePulse s) := by
  unfold Machine.takePulse
  split
  · exact h
  · exact Clocked.lockedPulse (s := s.withClock _) (ClockInv.pulse h _ h.goodRun)
  · next hm hl => exact h.huntingPulse (by rw [hl]; nofun) hm
  · next hm hl => exact h.huntingPulse (by rw [hl]; nofun) hm
  · exact h

/-- The third flywheel frame makes the state LOST (R160). -/
theorem Clocked.flywheelFrame (h : Clocked s) (hd : s.clock.flywheelDue s.now = true) :
    Clocked (let u := Machine.frameStart s
      let n := u.clock.flywheel + 1
      if n = 3 then raise .reference (u.withClock { u.clock.forget with lock := .lost, event := some .lost })
      else u.withClock { u.clock with flywheel := n }) := by
  have hu := h.frameStart
  have hlock : s.clock.lock = .locked := by
    simp only [FrameClock.flywheelDue, Bool.and_eq_true, decide_eq_true_eq] at hd
    exact hd.1
  dsimp only
  split
  · refine ClockInv.withEvent (ClockInv.relocked hu (m := s.clock.mode) (l := .lost) ⟨nofun, fun hm => ?_⟩) _
    exact nomatch hlock.symm.trans (h.mode.2 hm)
  case isFalse hn =>
    have hle : (Machine.frameStart s).clock.flywheel ≤ 2 := hu.flywheel
    exact ClockInv.withFlywheel hu (by omega)

theorem setFrame_clocked (b : List Byte) (h : Clocked s) : Clocked (setFrame b s).state := by
  unfold setFrame
  dsimp only
  split
  case isTrue hp =>
    have ht : -128 ≤ s8 b 2 ∧ s8 b 2 ≤ 127 := by
      have h1 := BitVec.le_toInt (b.getD 2 0)
      have h2 := BitVec.toInt_lt (x := b.getD 2 0)
      unfold s8
      omega
    exact ClockInv.setFrame h hp ht
  · exact h

theorem setReference_clocked (b : List Byte) (h : Clocked s) : Clocked (setReference b s).state := by
  unfold setReference
  split
  · exact ClockInv.setMode h _
  · exact h

theorem takeReset_clocked (x : Scope) (h : Clocked s) : Clocked (takeReset x s) := by
  have hl : (takeReset x s).clock = (resetBlocks x (finishCueWork s)).clock :=
    (SameBlocks.ite (blocks_withLink _) ((blocks_withLink _).trans blocks_transmitNext)).clock (ps := []) (by simp)
  have hf : Clocked (finishCueWork s) := h.of_clock (blocks_finishCueWork.clock (by decide))
  show ClockInv (takeReset x s).clock
  rw [hl, resetBlocks_eq]
  dsimp only
  split
  · exact reset_clockInv _
  · exact hf

/-- Every command keeps the facts of the clock. -/
theorem exec_clocked (c : Instr) (h : Clocked s) : Ends (exec c s) Clocked := by
  by_cases hc : .clock ∉ touches c
  · have hb := exec_blocks c (s := s)
    cases ho : exec c s with
    | next t => exact h.of_clock ((hb.next ho).clock hc)
    | fault | refused => rw [ho] at hb; exact hb
  cases c with
  | powerOnReset a b => exact reset_clockInv 0
  | resetTakesEffect =>
    show Clocked _
    split
    · split
      · exact h.event fun _ => takeReset_clocked _
      · exact h
    · exact h
  | freeRunFrameStart =>
    refine h.event fun u hu => ?_
    split
    · exact hu.frameStart
    · exact hu
  | referencePulse => exact h.event fun _ hu => hu.takePulse
  | flywheelFrame =>
    refine h.event fun u hu => ?_
    split
    case isTrue hd => exact hu.flywheelFrame hd
    · exact hu
  | setFrame => exact h.request setFrame_clocked
  | setReference => exact h.request setReference_clocked
  | _ => simp [touches] at hc

theorem clockKept_claim : Claims.ClockKept :=
  kept_of_exec (P := Clocked) (fun c _ => exec_clocked c) (fun _ _ h => h.of_clock) fun _ h => h.of_clock

end clockInv
end Sys2Proof.Machine

namespace Sys2Proof.Machine

/-! ### The facts of the Cue Monitor, operation by operation (R138, R148, R151) -/

section cueInv
variable {c : CueMonitor} {n m : TimerNo} {x : Timer}

@[simp] theorem withTimer_self : (c.withTimer n x).timers[n] = x := by simp [CueMonitor.withTimer]

theorem withTimer_other (h : m ≠ n) : (c.withTimer n x).timers[m] = c.timers[m] := by
  have : n.val ≠ m.val := fun e => h (Fin.ext e.symm)
  simp [CueMonitor.withTimer, this]

/-- What the facts ask of one timer (R148). -/
structure Timer.Sound (n : TimerNo) (x : Timer) : Prop where
  reload : 1 ≤ x.reload ∧ x.reload ≤ 65535
  count : x.count ≤ 65535
  chain : n = 0 → x.mode ≠ .chained

theorem CueInv.timer (h : CueInv c) (n : TimerNo) : c.timers[n].Sound n where
  reload := ⟨(h.reload n).1, (h.reload n).2.1⟩
  count := (h.reload n).2.2
  chain e := e ▸ h.chain

theorem CueInv.withTimers {timers : Vector Timer 6} (h : CueInv c) (ht : ∀ n : TimerNo, timers[n].Sound n) :
    CueInv { c with timers := timers } :=
  ⟨h.depth, fun n => ⟨(ht n).reload.1, (ht n).reload.2, (ht n).count⟩, (ht 0).chain rfl, h.expired, h.expiring⟩

theorem CueInv.withTimer (h : CueInv c) (hx : x.Sound n) : CueInv (c.withTimer n x) := by
  refine h.withTimers (timers := (c.withTimer n x).timers) fun m => ?_
  by_cases e : m = n
  · subst e
    rwa [withTimer_self]
  · rw [withTimer_other e]
    exact h.timer m

theorem CueInv.withQueue {q : List CueEntry} (h : CueInv c) (hq : q.length ≤ 16) : CueInv { c with queue := q } :=
  ⟨hq, h.reload, h.chain, h.expired, h.expiring⟩

theorem CueInv.withExpiring {l : List TimerNo} (h : CueInv c) (hl : l.Pairwise (· < ·)) :
    CueInv { c with expiring := l } :=
  ⟨h.depth, h.reload, h.chain, h.expired, hl⟩

/-- The expired set empties when it is sampled, and takes the numbers of timers (R151). -/
theorem CueInv.sampled (h : CueInv c) : CueInv { c with expired := 0 } :=
  ⟨h.depth, h.reload, h.chain, BitVec.zero_and, h.expiring⟩

theorem CueInv.withExpired (h : CueInv c) (n : TimerNo) :
    CueInv { c with expired := c.expired ||| byte (2 ^ n.val) } := by
  have hn : ∀ n : TimerNo, byte (2 ^ n.val) &&& 0xC0 = 0 := by decide
  refine ⟨h.depth, h.reload, h.chain, ?_, h.expiring⟩
  show (c.expired ||| byte (2 ^ n.val)) &&& 0xC0 = 0
  rw [BitVec.and_comm, BitVec.and_or_distrib_left, BitVec.and_comm, h.expired, BitVec.and_comm, hn]
  rfl

/-! Timers (R149 to R151) -/

theorem Timer.Sound.started (h : x.Sound n) : ({ x with count := x.reload, running := true } : Timer).Sound n :=
  ⟨h.reload, h.reload.2, h.chain⟩

theorem Timer.Sound.stopped (h : x.Sound n) : ({ x with running := false } : Timer).Sound n :=
  ⟨h.reload, h.count, h.chain⟩

theorem Timer.Sound.less (h : x.Sound n) : x.less.Sound n := ⟨h.reload, (Nat.sub_le _ _).trans h.count, h.chain⟩

theorem Timer.Sound.afterExpiry (h : x.Sound n) : x.afterExpiry.Sound n := by
  unfold Timer.afterExpiry
  split
  · exact ⟨h.reload, h.reload.2, h.chain⟩
  all_goals exact ⟨h.reload, Nat.zero_le _, h.chain⟩

/-- A number put in its place among the expiries that are due. -/
theorem pairwise_insert {l : List TimerNo} (h : l.Pairwise (· < ·)) (n : TimerNo) :
    (l.filter (· < n) ++ n :: l.filter (n < ·)).Pairwise (· < ·) := by
  simp only [List.pairwise_append, List.pairwise_cons, List.mem_filter, List.mem_cons, decide_eq_true_eq]
  refine ⟨h.filter _, ⟨fun m hm => hm.2, h.filter _⟩, fun a ha b hb => ?_⟩
  rcases hb with rfl | hb
  · exact ha.2
  · exact ha.2.trans hb.2

theorem CueInv.countTimer (h : CueInv c) (n : TimerNo) : CueInv (countTimer n c) := by
  have hx := h.withTimer (h.timer n).less
  unfold Machine.countTimer
  dsimp only
  split
  · exact hx.withExpiring (pairwise_insert h.expiring n)
  · exact hx

theorem CueInv.passExpiry (h : CueInv c) (n : TimerNo) : CueInv (passExpiry n c) := by
  unfold Machine.passExpiry
  split
  · dsimp only
    split
    · exact h.countTimer _
    · exact h
  · exact h

theorem CueInv.frameTimer (h : CueInv c) (n : TimerNo) : CueInv (frameTimer c n) := by
  unfold Machine.frameTimer
  split
  · exact h.countTimer _
  · exact h

/-- The two counts and what is due of them are not among the facts (R145). -/
theorem CueInv.lowerCounts (h : CueInv c) : CueInv (lowerCounts c) :=
  ⟨h.depth, h.reload, h.chain, h.expired, h.expiring⟩

theorem CueInv.frame (h : CueInv c) : CueInv ((List.finRange 6).foldl Machine.frameTimer (Machine.lowerCounts c)) :=
  List.foldlRecOn _ _ h.lowerCounts fun _ hd n _ => hd.frameTimer n

/-! The queue (R138 to R140) -/

theorem markersOf_length (t : TextStore) (bs : List Nat) : (markersOf t bs).length ≤ bs.length :=
  List.length_filterMap_le _ _

theorem refill_length {q : List CueEntry} (h : q.length ≤ 16) (t : ScriptTable) (st : TextStore) (anchor : Nat) :
    (refill t st anchor q).length ≤ 16 := by
  unfold refill
  dsimp only
  split
  · exact h
  · simp only [List.length_append, List.length_take, Config.cueDepth]
    omega

theorem rebuilt_length {q : List CueEntry} (h : q.length ≤ 16) (t : ScriptTable) (st : TextStore) (pos : Option Pos)
    (old : List CueEntry) : (rebuilt t st pos old q).length ≤ 16 := by
  unfold rebuilt
  split
  · exact Nat.zero_le _
  · split
    · rw [List.length_map]
      refine (markersOf_length _ _).trans ((List.length_filter_le _ _).trans ?_)
      rwa [List.length_map]
    · rw [List.length_map, List.length_take]
      exact Nat.min_le_left _ _

end cueInv
end Sys2Proof.Machine

namespace Sys2Proof.Machine

/-! ### Every command keeps the facts of the Cue Monitor -/

/-- From one state to the other the facts of the Cue Monitor are kept. -/
def KeepsCues (s t : State) : Prop := CueInv s.cues → CueInv t.cues

section keeps
variable {ps qs : List Part} {s t u : State}

theorem KeepsCues.rfl : KeepsCues s s := id

theorem KeepsCues.trans (h : KeepsCues s t) (k : KeepsCues t u) : KeepsCues s u := fun hi => k (h hi)

/-- An operation that leaves the Cue Monitor alone. -/
theorem Same.keepsCues (h : Same ps s t) (hc : .cues ∉ ps := by decide) : KeepsCues s t :=
  fun hi => h.cues hc ▸ hi

theorem KeepsCues.ite {c : Prop} [Decidable c] (ht : KeepsCues s t) (hu : KeepsCues s u) :
    KeepsCues s (if c then t else u) := by
  split
  · exact ht
  · exact hu

theorem KeepsCues.foldl {β : Type} {g : State → β → State} (h : ∀ s b, KeepsCues s (g s b)) :
    ∀ (l : List β) (s : State), KeepsCues s (l.foldl g s)
  | [], _ => .rfl
  | b :: l, s => (h s b).trans (KeepsCues.foldl h l _)

/-- Of the transmitter's acts the sampling of Timer Expired alone touches the Cue Monitor (R151, R183). -/
theorem keepsCues_sendNotice (n : Notice) (rest : List Notice) : KeepsCues s (sendNotice n rest s) := by
  intro hi
  rw [sendNotice_cues]
  split
  · exact hi.sampled
  · exact hi

theorem keepsCues_sendIfIdle : KeepsCues s (sendIfIdle s) := by
  obtain e | ⟨n, rest, -, -, e⟩ | ⟨r, rest, -, -, -, e⟩ := sendIfIdle_cases s
  all_goals rw [e]
  · exact .rfl
  · exact keepsCues_sendNotice _ _
  · exact id

theorem keepsCues_transmitNext : KeepsCues s (transmitNext s) := by
  unfold transmitNext
  split
  · exact id
  · exact keepsCues_sendNotice _ _
  · exact id

/-- What is none of the Cue Monitor's. -/
theorem keepsCues_withLink (x : LinkController) : KeepsCues s (s.withLink x) := id

theorem keepsCues_withEngine (x : Engine) : KeepsCues s (s.withEngine x) := id

theorem keepsCues_withMail (x : Mail) : KeepsCues s (s.withMail x) := id

/-! What brings an event about -/

theorem keepsCues_event {req : Bool} {f : State → State} (h : ∀ u, KeepsCues u (f u)) :
    KeepsCues s (event req f s) :=
  KeepsCues.trans (t := (f (s.withCause req)).withCause false) (h (s.withCause req)) keepsCues_sendIfIdle

theorem keepsCues_takeHead {α β : Type} {c : List (Msg α)} {want : α → Option β} {x : List (Msg α) → State → Mail}
    {f : β → State → State} (hf : ∀ i a, want i = some a → ∀ u, KeepsCues u (f a u)) :
    KeepsCues s (takeHead c want (fun r u => u.withMail (x r u)) f s) := by
  unfold takeHead
  split
  · split
    · next ha => exact (keepsCues_withMail _).trans (keepsCues_event (hf _ _ ha))
    · exact .rfl
  · exact .rfl

theorem keepsCues_request {meant : Request → Bool} {owner : List Byte → State → Answer}
    (ho : ∀ b {u}, KeepsCues u (owner b u).state) : KeepsCues s (runRequestIf meant owner s) := by
  unfold runRequestIf
  split
  · exact .rfl
  · refine .ite (keepsCues_event fun u => ?_) .rfl
    show KeepsCues u (ite _ _ _ : Answer).state
    split
    · exact ho _
    · exact .rfl

/-- A request of another block. -/
theorem keepsCues_other {meant : Request → Bool} {owner : List Byte → State → Answer}
    (ho : ∀ {u} b, Same qs u (owner b u).state) (hc : .cues ∉ qs := by decide) :
    KeepsCues s (runRequestIf meant owner s) :=
  keepsCues_request fun b => (ho b).keepsCues hc

/-! The Cue Monitor's own work -/

theorem keepsCues_lampAction (f : Nat) : KeepsCues s (lampAction f s) := by
  intro hi
  have h : CueInv { s.cues with flashCount := max s.cues.flashCount f } :=
    ⟨hi.depth, hi.reload, hi.chain, hi.expired, hi.expiring⟩
  unfold lampAction
  dsimp only
  split <;> exact h

theorem keepsCues_headFlagAction (f : Nat) : KeepsCues s (headFlagAction f s) := by
  intro hi
  have h : CueInv { s.cues with flagCount := max s.cues.flagCount f } :=
    ⟨hi.depth, hi.reload, hi.chain, hi.expired, hi.expiring⟩
  unfold headFlagAction
  dsimp only
  split <;> exact h

theorem keepsCues_startTimer (n : TimerNo) : KeepsCues s (startTimer n s) := fun hi => hi.withTimer (hi.timer n).started

theorem keepsCues_stopTimer (n : TimerNo) : KeepsCues s (stopTimer n s) := fun hi => hi.withTimer (hi.timer n).stopped

theorem keepsCues_expiryAction (a : ExpiryAction) : KeepsCues s (expiryAction a s) := by
  cases a
  · exact .rfl
  · exact keepsCues_withMail _
  · exact keepsCues_lampAction _

theorem keepsCues_expireTimer (n : TimerNo) : KeepsCues s (expireTimer n s) := by
  intro hi
  have hx := (hi.timer n).afterExpiry
  have h1 : CueInv { s.cues with
      expiring := s.cues.expiring.tail, expired := s.cues.expired ||| byte (2 ^ n.val) } :=
    (hi.withExpired n).withExpiring hi.expiring.tail
  unfold expireTimer
  dsimp only
  generalize hu : raise .timerExpired _ = u
  have hcu : CueInv u.cues := by rw [← hu]; exact h1
  have ha : CueInv (expiryAction s.cues.timers[n].action u).cues := keepsCues_expiryAction _ hcu
  rw [State.withCues_cues]
  exact (ha.withTimer hx).passExpiry n

theorem keepsCues_endFlash : KeepsCues s (endFlash s) := by
  intro hi
  rw [(endFlash_cues s).1]
  exact ⟨hi.depth, hi.reload, hi.chain, hi.expired, hi.expiring⟩

theorem keepsCues_endCueFlag : KeepsCues s (endCueFlag s) := by
  intro hi
  rw [(endCueFlag_cues s).1]
  exact ⟨hi.depth, hi.reload, hi.chain, hi.expired, hi.expiring⟩

theorem keepsCues_finishCueWork : KeepsCues s (finishCueWork s) :=
  (keepsCues_endFlash.trans keepsCues_endCueFlag).trans
    (KeepsCues.foldl (fun _ n => .ite ((keepsCues_expireTimer n).trans keepsCues_sendIfIdle) .rfl) _ _)

theorem keepsCues_rebuildAt (pos : Option Pos) : KeepsCues s (rebuildAt pos s) := fun hi =>
  hi.withQueue (rebuilt_length hi.depth _ _ _ _)

theorem keepsCues_rebuild : KeepsCues s (rebuild s) := keepsCues_rebuildAt _

theorem keepsCues_cueReady : KeepsCues s (cueReady s) :=
  keepsCues_finishCueWork.trans (.ite .rfl (keepsCues_rebuildAt (s := State.withMail _ _) _))

theorem keepsCues_cueFrame : KeepsCues s (cueFrame s) := fun hi => by
  rw [cueFrame, State.withCues_cues]
  exact hi.frame

theorem keepsCues_fire (e : CueEntry) : KeepsCues s (fire e s) := by
  intro hi
  have timer {f : TimerNo → State → State} (hf : ∀ m u, KeepsCues u (f m u)) (n : Nat) (u : State) :
      KeepsCues u (timerOf n f u) := by
    unfold timerOf
    split
    · exact hf _ _
    · exact .rfl
  have action (k : MarkerKind) (n : Nat) (u : State) : KeepsCues u (markerAction k n u) := by
    cases k
    · exact .rfl
    · exact .rfl
    · exact timer (fun m _ => keepsCues_startTimer m) n u
    · exact timer (fun m _ => keepsCues_stopTimer m) n u
    · exact keepsCues_lampAction n
    · exact keepsCues_headFlagAction n
  exact action _ _ _ ⟨hi.depth, hi.reload, hi.chain, hi.expired, hi.expiring⟩

theorem keepsCues_dropEntry (b : Nat) : KeepsCues s (dropEntry b s) := fun hi =>
  hi.withQueue (refill_length ((List.length_eraseP_le).trans hi.depth) _ _ _)

theorem keepsCues_passLines (mode : CheckMode) : ∀ (bs : List Nat) (s : State), KeepsCues s (passLines mode bs s).1
  | [], _ => .rfl
  | b :: bs, s => by
    unfold passLines
    split
    · exact keepsCues_passLines mode bs s
    · dsimp only
      split
      · exact (keepsCues_dropEntry b).trans (keepsCues_passLines mode bs _)
      · split
        · exact (keepsCues_dropEntry b).trans (keepsCues_fire _)
        · exact ((keepsCues_dropEntry b).trans (keepsCues_fire _)).trans (keepsCues_passLines mode bs _)

theorem keepsCues_passageCheck (a b : Pos) (fwd : Bool) (mode : CheckMode) :
    KeepsCues s (passageCheck a b fwd mode s).1 := by
  unfold passageCheck
  dsimp only
  split
  · exact keepsCues_cueReady
  · split
    · exact keepsCues_cueReady.trans (keepsCues_passLines _ _ _)
    · exact keepsCues_cueReady.trans (keepsCues_rebuildAt _)

/-! The requests (R146 to R149) -/

theorem keepsCues_withTimer {n : Nat} {f : TimerNo → Answer} (h : ∀ m, KeepsCues s (f m).state) :
    KeepsCues s (withTimer n s f).state := by
  unfold withTimer
  split
  · exact h _
  · exact .rfl

theorem keepsCues_skipCue (b : List Byte) : KeepsCues s (skipCue b s).state := by
  unfold skipCue
  dsimp only
  split
  · exact .rfl
  · split
    · exact .rfl
    · exact fun hi => hi.withQueue (List.length_set.trans_le hi.depth)

theorem u16_le (body : List Byte) (i : Nat) : u16 body i ≤ 65535 := by
  have h1 := (body.getD i 0).isLt
  have h2 := (body.getD (i + 1) 0).isLt
  unfold u16 u8
  omega

theorem keepsCues_setTimer (b : List Byte) : KeepsCues s (setTimer b s).state := by
  refine keepsCues_withTimer fun n => ?_
  dsimp only
  split
  · split
    · exact .rfl
    case isFalse hok =>
      intro hi
      have hpos : 1 ≤ u16 b 2 := Nat.one_le_iff_ne_zero.2 fun h0 => hok (.inl h0)
      refine hi.withTimer ⟨⟨hpos, u16_le _ _⟩, ?_, fun hn hm => hok (.inr ⟨hm, by rw [hn]; rfl⟩)⟩
      dsimp only
      split
      · exact u16_le _ _
      · exact (hi.timer n).count
  · exact .rfl

/-! The Scroll Engine's travels, by the checks they bring (R76) -/

theorem keepsCues_engineReady : KeepsCues s (engineReady s) := by
  unfold engineReady
  split
  · exact .rfl
  · exact same_takeReports.keepsCues.trans keepsCues_sendIfIdle

theorem keepsCues_advance : KeepsCues s (advance s) := by
  obtain e | ⟨-, e⟩ | ⟨-, e⟩ | ⟨p, r, v, goal, x, f, -, e⟩ := advance_cases s
  all_goals rw [e]
  · exact .rfl
  · exact id
  · exact (same_enterHalted _).keepsCues
  · rw [advanceBy_eq]
    dsimp only
    refine KeepsCues.trans ?_ (same_arrive _).keepsCues
    exact (keepsCues_withEngine _).trans ((keepsCues_withEngine _).trans (keepsCues_passageCheck _ _ _ _))

theorem keepsCues_frameAdvance (frame : Half) : KeepsCues s (frameAdvance frame s) :=
  ((same_reportAir.keepsCues.trans keepsCues_advance).trans same_designate.keepsCues).trans
    (same_sendPublish _).keepsCues

theorem keepsCues_travelSpan (mode : CheckMode) (fwd : Bool) (a b : Pos) :
    KeepsCues s (travelSpan mode fwd a b s).1 := by
  have h := keepsCues_passageCheck (s := s) a b fwd mode
  unfold travelSpan
  dsimp only
  split <;> exact h

theorem keepsCues_jog (d : Int) : KeepsCues s (jog d s) := by
  have span (mode : CheckMode) (fwd : Bool) (a b : Pos) :
      KeepsCues s (travelSpan mode fwd a b (jogHalt (cueReady s))).1 :=
    (keepsCues_cueReady.trans same_jogHalt.keepsCues).trans (keepsCues_travelSpan _ _ _ _)
  unfold jog
  split
  · exact .rfl
  · split
    · exact same_jogHalt.keepsCues
    · split
      · exact same_jogHalt.keepsCues
      · exact .trans (.ite ((span _ _ _ _).trans (same_enterHalted _).keepsCues) (span _ _ _ _))
          same_designate.keepsCues

/-! The work of the other blocks that sets the transmitter going (R183) -/

theorem keepsCues_linkFault (c : LinkErrorCause) : KeepsCues s (linkFault c s) :=
  ((keepsCues_withLink _).trans (keepsCues_withLink _)).trans keepsCues_sendIfIdle

theorem keepsCues_hostGap : KeepsCues s (hostGap s) :=
  .ite ((keepsCues_withLink _).trans (keepsCues_linkFault _)) .rfl

theorem keepsCues_hostChars (cs : List LineChar) : KeepsCues s (hostChars cs s) := by
  have offer (k : Byte) (b : List Byte) (u : State) : KeepsCues u (offerFrame k b u) :=
    .ite id (.ite id (keepsCues_linkFault _))
  refine keepsCues_hostGap.trans (KeepsCues.foldl (fun u c => ?_) _ _)
  unfold hostChar
  dsimp only
  split
  · exact (keepsCues_withLink _).trans (offer _ _ _)
  · exact (keepsCues_withLink _).trans (keepsCues_linkFault _)
  · exact id

theorem keepsCues_portReady (p : PortNo) : KeepsCues s (portReady p s) :=
  (same_sendIdle p).keepsCues.trans (.ite ((same_enterFaulted _ _).keepsCues.trans keepsCues_sendIfIdle) .rfl)

theorem keepsCues_portEvent {p : PortNo} {f : State → State} (h : ∀ u, KeepsCues u (f u)) :
    KeepsCues s (portEvent p f s) :=
  keepsCues_event fun _ => (keepsCues_portReady p).trans (h _)

/-! Resets (R153, R154) -/

theorem cuesAfterReset_inv (x : Scope) (h : CueInv s.cues) : CueInv (cuesAfterReset x s) := by
  have reset (n : TimerNo) : Timer.reset.Sound n := ⟨⟨Nat.le_refl _, by decide⟩, Nat.zero_le _, fun _ => nofun⟩
  unfold cuesAfterReset
  split
  · exact reset_cueInv
  · have ht (n : TimerNo) : (if x.motion then Vector.replicate 6 Timer.reset else s.cues.timers)[n].Sound n := by
      split
      · simpa using reset n
      · exact h.timer n
    have he : (if x.motion then [] else s.cues.expiring).Pairwise (· < ·) := by
      split
      · exact .nil
      · exact h.expiring
    refine ((h.withTimers ht).withExpiring he).withQueue ?_
    split
    · exact Nat.zero_le _
    · split
      · exact rebuilt_length (Nat.zero_le _) _ _ _ _
      · exact h.depth

theorem keepsCues_takeReset (x : Scope) : KeepsCues s (takeReset x s) := by
  have hlink (u : State) : KeepsCues u (resetLink x u) :=
    .ite id ((keepsCues_withLink _).trans keepsCues_transmitNext)
  refine (keepsCues_finishCueWork.trans fun hi => ?_).trans (hlink (resetBlocks x (finishCueWork s)))
  rw [resetBlocks_eq]
  exact cuesAfterReset_inv x hi

/-! The commands -/

theorem keepsCues_report (want : ScriptReport → Bool) : KeepsCues s (takeReportIf want s) :=
  keepsCues_takeHead fun _ r _ _ => (same_takeReport r).keepsCues.trans same_takeReports.keepsCues

theorem keepsCues_cueReport {α : Type} (want : CueMsg → Option α) : KeepsCues s (takeCueReportIf want s) :=
  keepsCues_takeHead fun _ _ _ _ => keepsCues_finishCueWork.trans keepsCues_rebuild

theorem keepsCues_input {want : HolderInput → Option (State → State)}
    (h : ∀ i f, want i = some f → ∀ u, KeepsCues u (f u)) : KeepsCues s (takeInputIf want s) :=
  keepsCues_takeHead fun i f hf _ => keepsCues_engineReady.trans (h i f hf _)

theorem keepsCues_portMsg {β : Type} {p : PortNo} {want : PortMsg → Option β} {f : β → State → State}
    (hf : ∀ x u, KeepsCues u (f x u)) : KeepsCues s (takePortMsg p want f s) :=
  keepsCues_takeHead fun _ x _ => hf x

/-- Every command keeps the facts of the Cue Monitor. -/
theorem exec_keepsCues (c : Instr) : Ends (exec c s) (KeepsCues s) := by
  cases c with
  | powerOnReset a b => exact fun _ => reset_cueInv
  | resetTakesEffect =>
    show KeepsCues s _
    split
    · exact .ite (keepsCues_event fun _ => keepsCues_takeReset _) .rfl
    · exact .rfl
  | checkedFrame cs => exact keepsCues_event fun _ => keepsCues_hostChars cs
  | receiveFault cs => exact keepsCues_event fun _ => keepsCues_hostChars cs
  | frameTimeout => exact keepsCues_event fun _ => keepsCues_hostGap
  | unknownRequest =>
    show KeepsCues s _
    split
    · exact .rfl
    · exact .ite (keepsCues_event fun _ => keepsCues_withLink _) .rfl
  | transmitNext => exact KeepsCues.ite .rfl (keepsCues_event fun _ => keepsCues_transmitNext)
  | openStory => exact keepsCues_other same_openStory
  | appendLine => exact keepsCues_other same_appendLine
  | closeStoryCommit => exact keepsCues_other same_closeCommit
  | closeStoryAbandon => exact keepsCues_other same_closeAbandon
  | freeStory => exact keepsCues_other same_freeStory
  | setStory => exact keepsCues_other same_setStory
  | queryStory => exact keepsCues_other same_queryStory
  | queryStore => exact keepsCues_request fun _ _ => .rfl
  | placeEntry => exact keepsCues_other same_placeEntry
  | moveEntry => exact keepsCues_other same_moveEntry
  | removeEntry => exact keepsCues_other same_removeEntry
  | floatEntry => exact keepsCues_other same_floatEntry
  | queryOrder => exact keepsCues_request fun _ _ => .rfl
  | insertLine => exact keepsCues_other same_insertLine
  | replaceLine => exact keepsCues_other same_replaceLine
  | deleteLines => exact keepsCues_other same_deleteLines
  | readLine => exact keepsCues_other same_readLine
  | queryFault => exact keepsCues_request fun _ _ => .rfl
  | clearFault => exact keepsCues_other (qs := [.script]) fun _ => same_withScript _
  | designationReport => exact keepsCues_takeHead fun _ k _ _ => (same_designation k).keepsCues
  | airFrameReport => exact keepsCues_takeHead fun _ k _ _ => (same_airFrame k).keepsCues
  | run => exact keepsCues_other same_runScroll
  | stop => exact keepsCues_other (qs := [.engine]) fun _ => same_withEngine _
  | halt => exact keepsCues_other (qs := [.engine, .notices]) fun _ => same_enterHalted _
  | step => exact keepsCues_other same_stepScroll
  | goTo => exact keepsCues_other same_goToRequest
  | setSpeed => exact keepsCues_other same_setSpeed
  | setMotion => exact keepsCues_other same_setMotion
  | setPreview => exact keepsCues_other same_setPreview
  | queryMotion => exact keepsCues_request fun _ _ => .rfl
  | frameAdvance => exact keepsCues_takeHead fun _ f _ _ => keepsCues_engineReady.trans (keepsCues_frameAdvance f)
  | insertReport => exact keepsCues_report _
  | deleteReport => exact keepsCues_report _
  | storyIneligibleReport => exact keepsCues_report _
  | storyEligibleReport => exact keepsCues_report _
  | orderChangedReport => exact keepsCues_report _
  | setTarget => exact keepsCues_input fun | .setTarget _, _, rfl, _ => (same_withEngine _).keepsCues
  | startStopKey => exact keepsCues_input fun | .key, _, rfl, _ => same_startStop.keepsCues
  | jog => exact keepsCues_input fun | .jog d, _, rfl, _ => keepsCues_jog d
  | stopExpiryAction =>
    exact keepsCues_takeHead fun _ _ _ _ => keepsCues_engineReady.trans (same_withEngine _).keepsCues
  | setDriveMode => exact keepsCues_other same_setDriveMode
  | setPortClass => exact keepsCues_other same_setPortClass
  | pinDrive => exact keepsCues_other same_pinDrive
  | claimDrive => exact keepsCues_other same_claimDrive
  | releaseDrive => exact keepsCues_other same_releaseDrive
  | queryDrive => exact keepsCues_request fun _ _ => .rfl
  | claim p => exact keepsCues_portMsg fun _ _ => (same_arbiterEvent _).keepsCues
  | idle p => exact keepsCues_portMsg fun _ _ => (same_arbiterEvent _).keepsCues
  | portReady p => exact keepsCues_portMsg fun _ _ => (same_arbiterEvent _).keepsCues
  | portGone p => exact keepsCues_portMsg fun _ _ => (same_arbiterEvent _).keepsCues
  | passHolderInput p => exact keepsCues_portMsg fun x _ => .ite (same_sendInput x).keepsCues .rfl
  | standingReport p =>
    exact keepsCues_takeHead fun _ _ _ _ => (keepsCues_portReady p).trans (same_updatePort _ _).keepsCues
  | enablePort => exact keepsCues_other same_enablePort
  | disablePort => exact keepsCues_other same_disablePort
  | resetPort => exact keepsCues_other same_resetPort
  | setPort => exact keepsCues_other same_setPort
  | setLamp => exact keepsCues_other same_setLamp
  | queryPort =>
    exact KeepsCues.ite (keepsCues_event fun _ => same_finishAcks.keepsCues) (keepsCues_other same_queryPort)
  | presenceFound p =>
    exact keepsCues_portEvent fun _ => .ite ((same_updatePort _ _).keepsCues.trans (same_setChange _ _).keepsCues) .rfl
  | presenceLost p =>
    exact keepsCues_portEvent fun _ => .ite (((same_updatePort _ _).keepsCues.trans
      (same_setChange _ _).keepsCues).trans (same_leaveEnabled _ _).keepsCues) .rfl
  | holdOffEnd p =>
    refine keepsCues_portEvent fun u => ?_
    split
    · exact .ite (same_updatePort _ _).keepsCues .rfl
    · exact .rfl
  | overcurrent p =>
    exact keepsCues_portEvent fun _ =>
      .ite ((same_updatePort _ _).keepsCues.trans (same_enterFaulted _ _).keepsCues) .rfl
  | poll p => exact keepsCues_portEvent fun _ => .ite (same_updatePort _ _).keepsCues .rfl
  | silenceFault p => exact keepsCues_event fun _ => keepsCues_portReady p
  | hello p cs => exact keepsCues_portEvent fun _ => (same_portChars p cs).keepsCues
  | dataReport p cs => exact keepsCues_portEvent fun _ => (same_portChars p cs).keepsCues
  | releaseTimeReached p => exact keepsCues_event fun _ => (same_sendIdle p).keepsCues
  | lampFlash p =>
    exact keepsCues_takeHead fun _ _ _ _ => (keepsCues_portReady p).trans (same_updatePort _ _).keepsCues
  | lampFlashEnd p =>
    exact keepsCues_takeHead fun _ _ _ _ => (keepsCues_portReady p).trans (same_updatePort _ _).keepsCues
  | cueFrameStart => exact keepsCues_takeHead fun _ _ _ _ => keepsCues_cueReady.trans keepsCues_cueFrame
  | flashCountEnd => exact keepsCues_event fun _ => keepsCues_endFlash
  | cueFlagCountEnd => exact keepsCues_event fun _ => keepsCues_endCueFlag
  | timerExpiry n =>
    exact KeepsCues.ite (keepsCues_event fun _ =>
      (keepsCues_endFlash.trans keepsCues_endCueFlag).trans (keepsCues_expireTimer n)) .rfl
  | positionJumped => exact keepsCues_takeHead fun _ _ _ _ => keepsCues_finishCueWork.trans keepsCues_rebuild
  | lineRewritten => exact keepsCues_cueReport _
  | scriptChangeReport => exact keepsCues_cueReport _
  | queryCues => exact keepsCues_request fun _ _ => .rfl
  | skipCue => exact keepsCues_request fun b _ => keepsCues_skipCue b
  | setTimer => exact keepsCues_request fun b _ => keepsCues_setTimer b
  | startTimer => exact keepsCues_request fun _ _ => keepsCues_withTimer fun n => keepsCues_startTimer n
  | stopTimer => exact keepsCues_request fun _ _ => keepsCues_withTimer fun n => keepsCues_stopTimer n
  | queryTimers => exact keepsCues_request fun _ _ => .rfl
  | freeRunFrameStart => exact keepsCues_event fun _ => .ite same_frameStart.keepsCues .rfl
  | referencePulse => exact keepsCues_event fun _ => same_takePulse.keepsCues
  | flywheelFrame =>
    exact keepsCues_event fun _ => .ite (same_frameStart.keepsCues.trans
      (.ite ((same_withClock _).keepsCues.trans (same_raise _).keepsCues) (same_withClock _).keepsCues)) .rfl
  | setFrame => exact keepsCues_other same_setFrame
  | setReference => exact keepsCues_other same_setReference
  | queryFrame => exact keepsCues_request fun _ _ => .rfl
  | viewBuild h => exact keepsCues_takeHead fun _ x _ _ => (same_takePublish x h).keepsCues
  | headReady h cs => exact keepsCues_event fun _ => (same_headChars h cs).keepsCues
  | fetch h cs => exact keepsCues_event fun _ => (same_headChars h cs).keepsCues
  | headFrameDiscard h cs => exact keepsCues_event fun _ => (same_headChars h cs).keepsCues
  | headSilenceTimeout h =>
    exact keepsCues_event fun _ => .ite ((same_updateHead _ _).keepsCues.trans (same_raise _).keepsCues) .rfl
  | headTransmit h => exact keepsCues_event fun _ => (same_updateHead _ _).keepsCues
  | cueFlag h => exact keepsCues_takeHead fun _ _ _ _ => (same_updateHead _ _).keepsCues
  | cueFlagEnd h => exact keepsCues_takeHead fun _ _ _ _ => (same_updateHead _ _).keepsCues
  | setHead => exact keepsCues_other same_setHead
  | queryHead => exact keepsCues_other same_queryHead
  | identify => exact keepsCues_request fun _ _ => .rfl
  | setNotices => exact keepsCues_other same_setNotices
  | reset => exact keepsCues_other same_resetRequest

theorem exec_cueInv (c : Instr) (hi : CueInv s.cues) : Ends (exec c s) (fun t => CueInv t.cues) := by
  have h := exec_keepsCues c (s := s)
  cases ho : exec c s with
  | next t => exact h.next ho hi
  | fault | refused => rw [ho] at h; exact h

theorem cuesKept_claim : Claims.CuesKept :=
  kept_of_exec (fun c _ => exec_cueInv c) (fun _ _ h => h) fun _ h => h

/-- Settles O18: each operation keeps the facts of the Cue Monitor, and each of the clock's keeps the clock's. -/
theorem cuesAndClockKept : Obligations.CuesAndClockKept := ⟨cuesKept_claim, clockKept_claim⟩

end keeps
end Sys2Proof.Machine

namespace Sys2Proof.Machine

/-! ### The requests of the Cue Monitor (R146 to R149, R152) -/

section requests
variable {s : State} {n : TimerNo} {b : Nat}

theorem withTimer_timer (h : b = n.val) (s : State) (f : TimerNo → Answer) : withTimer b s f = f n := by
  subst h
  exact dif_pos n.isLt

theorem withTimer_range (h : 6 ≤ b) (s : State) (f : TimerNo → Answer) : withTimer b s f = refuse .range s :=
  dif_neg (by omega)

theorem skipCue_eq {body : List Byte} {e : CueEntry} (h : s.cues.queue[u8 body 0]? = some e) : skipCue body s =
    if e.skipped then refuse .state s else done (placeBytes s.script e.block)
      (setQueue (s.cues.queue.set (u8 body 0) { e with skipped := true }) s) := by
  simp only [skipCue, h]

theorem cueRequests_claim : Claims.CueRequests := by
  refine fun s => ⟨fun i h => ⟨fun hi => ?_, fun e he => ⟨fun hs => ?_, fun hs => ?_⟩⟩, fun h => ?_⟩
  · refine congrArg Host.Outcome.next (runRequest_refused h rfl ?_)
    have hn : (s.withCause true).cues.queue[u8 [i] 0]? = none := List.getElem?_eq_none hi
    simp only [skipCue, hn]
  · exact congrArg Host.Outcome.next (runRequest_refused h rfl
      ((skipCue_eq (s := s.withCause true) (body := [i]) he).trans (if_pos hs)))
  · exact congrArg Host.Outcome.next (runRequest_done h rfl
      ((skipCue_eq (s := s.withCause true) (body := [i]) he).trans (if_neg (Bool.eq_false_iff.1 hs))) rfl rfl)
  · exact congrArg Host.Outcome.next (runRequest_done h rfl rfl rfl rfl)

theorem TimerMode.ofCode_chained {n : Nat} : TimerMode.ofCode n = some .chained ↔ n = 2 := by
  unfold ofCode
  split <;> simp_all

/-- Set Timer for a timer of the part, its fields read. -/
theorem setTimer_eq {body : List Byte} (hn : u8 body 0 = n.val) {mode : TimerMode} {action : ExpiryAction}
    (hm : TimerMode.ofCode (u8 body 1) = some mode) (ha : ExpiryAction.ofCode (u8 body 4) = some action) :
    setTimer body s = if u16 body 2 = 0 ∨ (mode = .chained ∧ n.val = 0) then refuse .range s
      else done [] (s.withCues (s.cues.withTimer n
        { mode := mode, reload := u16 body 2
          count := if s.cues.timers[n].running then u16 body 2 else s.cues.timers[n].count
          running := s.cues.timers[n].running, action := action })) := by
  refine (withTimer_timer hn _ _).trans ?_
  simp only [hm, ha]

/-- ... and with a mode or an action that names none. -/
theorem setTimer_unnamed {body : List Byte} (h : TimerMode.ofCode (u8 body 1) = none ∨
    ExpiryAction.ofCode (u8 body 4) = none) : setTimer body s = refuse .range s := by
  unfold setTimer withTimer
  split
  · rcases h with h | h
    · simp only [h]
    · cases TimerMode.ofCode (u8 body 1) <;> simp only [h]
  · rfl

theorem setTimer_range {body : List Byte} (h : 6 ≤ u8 body 0 ∨ TimerMode.ofCode (u8 body 1) = none ∨
    ExpiryAction.ofCode (u8 body 4) = none ∨ u16 body 2 = 0 ∨ (u8 body 0 = 0 ∧ u8 body 1 = 2)) :
    setTimer body s = refuse .range s := by
  by_cases h6 : 6 ≤ u8 body 0
  · exact withTimer_range h6 _ _
  cases hm : TimerMode.ofCode (u8 body 1) with
  | none => exact setTimer_unnamed (.inl hm)
  | some mode =>
    cases ha : ExpiryAction.ofCode (u8 body 4) with
    | none => exact setTimer_unnamed (.inr ha)
    | some action =>
      rw [setTimer_eq (n := ⟨u8 body 0, by omega⟩) rfl hm ha, if_pos]
      simp only [h6, hm, ha, reduceCtorEq, false_or] at h
      refine h.imp_right fun ⟨h0, h2⟩ => ⟨?_, h0⟩
      exact Option.some.inj (hm.symm.trans (TimerMode.ofCode_chained.2 h2))

theorem timerRequests_claim : Claims.TimerRequests := by
  refine fun s => ⟨fun body h => ⟨fun hr => ?_, fun n mode action hn hm ha h0 hc => ?_⟩,
    fun b h => ⟨fun hb => ?_, fun n hn => ?_⟩, fun b h => ⟨fun hb => ?_, fun n hn => ?_⟩⟩
  · exact congrArg Host.Outcome.next (runRequest_refused h rfl (setTimer_range hr))
  · refine congrArg Host.Outcome.next (runRequest_done h rfl ((setTimer_eq hn hm ha).trans (if_neg ?_)) rfl rfl)
    exact fun hbad => hbad.elim h0 fun ⟨hch, hz⟩ => hc ⟨Fin.ext hz, hch⟩
  · exact congrArg Host.Outcome.next (runRequest_refused h rfl (withTimer_range hb _ _))
  · exact congrArg Host.Outcome.next (runRequest_done h rfl (withTimer_timer hn _ _) rfl rfl)
  · exact congrArg Host.Outcome.next (runRequest_refused h rfl (withTimer_range hb _ _))
  · exact congrArg Host.Outcome.next (runRequest_done h rfl (withTimer_timer hn _ _) rfl rfl)

/-- Settles O46: each owner's checks in their order, and the entry or the timer that an accepted request writes. -/
theorem cueAndTimerRequests : Obligations.CueAndTimerRequests := ⟨cueRequests_claim, timerRequests_claim⟩

/-- Settles O47: the reply is read off the Cue Monitor, which stays as it is. -/
theorem queryTimers_answers : Obligations.QueryTimers := by
  intro s
  refine ⟨fun h => congrArg Host.Outcome.next (runRequest_done h rfl rfl rfl rfl), fun r rest hr hk hb ht => ?_⟩
  refine congrArg Host.Outcome.next (runRequestIf_malformed hr (by rw [hk]; rfl) ht ?_)
  rw [hk]
  exact fun e => hb (List.length_eq_zero_iff.1 (Option.some.inj e).symm)

end requests
end Sys2Proof.Machine

namespace Sys2Proof.Machine

/-! ### A marker that fires (R144, R145) -/

section fires
variable {s : State} {n : TimerNo}

theorem timerOf_timer {b : Nat} (h : b = n.val) (f : TimerNo → State → State) (s : State) : timerOf b f s = f n s := by
  subst h
  exact dif_pos n.isLt

/-- A count that is brought up from 0 begins the flash. -/
theorem lampAction_eq {f : Nat} (h : 1 ≤ f) (s : State) : lampAction f s =
    (let u := s.withCues { s.cues with flashCount := max s.cues.flashCount f }
     if s.cues.flashCount = 0 then sendFlash true u else u) :=
  if_congr (and_iff_left h) rfl rfl

theorem headFlagAction_eq {f : Nat} (h : 1 ≤ f) (s : State) : headFlagAction f s =
    (let u := s.withCues { s.cues with flagCount := max s.cues.flagCount f }
     if s.cues.flagCount = 0 then sendCueFlag true u else u) :=
  if_congr (and_iff_left h) rfl rfl

/-- The part once a marker at a slot and line is recorded as the last fired, with Cue Fired raised (R144). -/
def State.recorded (s : State) (e : CueEntry) (a : Slot × Nat) : State :=
  raise .cueFired (s.withCues { s.cues with
    lastFired := some { slot := a.1, line := a.2, kind := e.kind, param := e.param, frame := s.clock.counter } })

/-- Where the line stands, the record is that of the marker. -/
theorem fire_eq {e : CueEntry} {a : Slot × Nat} (h : s.script.locate e.block = some a) :
    fire e s = markerAction e.kind e.param (s.recorded e a) := by
  simp only [fire, State.recorded, h, Option.map_some, Option.some_or]

/-- Settles O42, by the action of each kind. -/
theorem markerFires : Obligations.MarkerFires := by
  intro s e a ha
  have fires {k : MarkerKind} (hk : e.kind = k) : fire e s = markerAction k e.param (s.recorded e a) := by
    rw [fire_eq ha, ← hk]
  refine ⟨fun hk => ?_, fun n hn => ⟨fun hk => ?_, fun hk => ?_⟩, fun hp => ⟨fun hk => ?_, fun hk => ?_⟩⟩
  · rcases hk with hk | hk
    · exact fires hk
    · exact fires hk
  · exact (fires hk).trans (timerOf_timer hn startTimer _)
  · exact (fires hk).trans (timerOf_timer hn stopTimer _)
  · exact (fires hk).trans (lampAction_eq hp _)
  · exact (fires hk).trans (headFlagAction_eq hp _)

end fires
end Sys2Proof.Machine

namespace Sys2Proof.Machine

/-! ### Timers that count and expire (R150, R151) -/

section timers
variable {c : CueMonitor} {n m : TimerNo} {s : State}

/-- The expiries that are due with one more, in its place. -/
def CueMonitor.dueWith (c : CueMonitor) (n : TimerNo) : List TimerNo :=
  c.expiring.filter (· < n) ++ n :: c.expiring.filter (n < ·)

theorem mem_dueWith : m ∈ c.dueWith n ↔ m ∈ c.expiring ∨ m = n := by
  simp only [CueMonitor.dueWith, List.mem_append, List.mem_cons, List.mem_filter, decide_eq_true_eq]
  constructor
  · rintro (h | h | h)
    · exact .inl h.1
    · exact .inr h
    · exact .inl h.1
  · rintro (h | h)
    · rcases lt_trichotomy m n with hlt | heq | hgt
      · exact .inl ⟨h, hlt⟩
      · exact .inr (.inl heq)
      · exact .inr (.inr ⟨h, hgt⟩)
    · exact .inr (.inl h)

theorem dueWith_last (h : ∀ m ∈ c.expiring, m < n) : c.dueWith n = c.expiring ++ [n] := by
  have h1 : c.expiring.filter (· < n) = c.expiring := List.filter_eq_self.2 fun m hm => decide_eq_true (h m hm)
  have h2 : c.expiring.filter (n < ·) = [] :=
    List.filter_eq_nil_iff.2 fun m hm => by simpa using (h m hm).le
  rw [CueMonitor.dueWith, h1, h2]

/-- A count that reaches 0 is due; nothing else changes but the timer. -/
theorem countTimer_eq (n : TimerNo) (c : CueMonitor) : countTimer n c = { c.withTimer n c.timers[n].less with
    expiring := if c.timers[n].count ≤ 1 then c.dueWith n else c.expiring } := by
  have hz : c.timers[n].less.count = 0 ↔ c.timers[n].count ≤ 1 := Nat.sub_eq_zero_iff_le
  unfold countTimer
  dsimp only
  simp only [hz]
  split <;> rfl

/-- Whether a frame start counts the timer (R150). -/
def CueMonitor.counts (c : CueMonitor) (n : TimerNo) : Bool := c.timers[n].running && c.timers[n].mode ≠ .chained

/-- Whether the frame start brings the timer to 0. -/
def CueMonitor.ends (c : CueMonitor) (n : TimerNo) : Bool := c.counts n && decide (c.timers[n].count ≤ 1)

theorem frameTimer_eq (c : CueMonitor) (n : TimerNo) : frameTimer c n = if c.counts n then countTimer n c else c :=
  if_congr (by simp [CueMonitor.counts]) rfl rfl

theorem frameTimer_self : (frameTimer c n).timers[n] = if c.counts n then c.timers[n].less else c.timers[n] := by
  rw [frameTimer_eq]
  split
  · rw [countTimer_eq]
    exact withTimer_self
  · rfl

theorem frameTimer_other (h : m ≠ n) : (frameTimer c n).timers[m] = c.timers[m] := by
  rw [frameTimer_eq]
  split
  · rw [countTimer_eq]
    exact withTimer_other h
  · rfl

/-- Counted in number order, a timer that ends is the last due so far. -/
theorem frameTimer_expiring (h : ∀ m ∈ c.expiring, m < n) :
    (frameTimer c n).expiring = c.expiring ++ if c.ends n then [n] else [] := by
  rw [frameTimer_eq, CueMonitor.ends]
  cases c.counts n
  · simp
  · rw [if_pos rfl, countTimer_eq, Bool.true_and]
    simp only [decide_eq_true_eq]
    split
    · exact dueWith_last h
    · exact (List.append_nil _).symm

/-- A pass over timers in number order: each counts down by itself, and those that end are due in that order. -/
theorem foldl_frameTimer (l : List TimerNo) : ∀ c : CueMonitor, l.Pairwise (· < ·) →
    (∀ m ∈ c.expiring, ∀ n ∈ l, m < n) →
    (∀ m : TimerNo, (l.foldl frameTimer c).timers[m] =
      if m ∈ l ∧ c.counts m = true then c.timers[m].less else c.timers[m]) ∧
    (l.foldl frameTimer c).expiring = c.expiring ++ l.filter c.ends := by
  induction l with
  | nil => simp
  | cons n l ih =>
    intro c hl hc
    obtain ⟨hn, hl⟩ := List.pairwise_cons.1 hl
    have he := frameTimer_expiring fun m hm => hc m hm n List.mem_cons_self
    have hne {m : TimerNo} (hm : m ∈ l) : m ≠ n := (hn m hm).ne'
    have hcounts {m : TimerNo} (hm : m ∈ l) : (frameTimer c n).counts m = c.counts m := by
      rw [CueMonitor.counts, frameTimer_other (hne hm), CueMonitor.counts]
    have hends : l.filter (frameTimer c n).ends = l.filter c.ends := List.filter_congr fun m hm => by
      rw [CueMonitor.ends, hcounts hm, frameTimer_other (hne hm), CueMonitor.ends]
    obtain ⟨ht, hx⟩ := ih (frameTimer c n) hl fun m hm k hk => by
      rw [he, List.mem_append] at hm
      rcases hm with hm | hm
      · exact hc m hm k (List.mem_cons_of_mem _ hk)
      · split at hm
        · rw [List.mem_singleton.1 hm]
          exact hn k hk
        · cases hm
    refine ⟨fun m => ?_, ?_⟩
    · rw [List.foldl_cons, ht]
      by_cases hm : m ∈ l
      · rw [hcounts hm, frameTimer_other (hne hm)]
        simp [hm]
      · by_cases e : m = n
        · subst e
          rw [frameTimer_self]
          simp [hm]
        · rw [frameTimer_other e]
          simp [hm, e]
    · rw [List.foldl_cons, hx, hends, he, List.append_assoc, List.filter_cons]
      split <;> rfl

/-- Of a Cue Monitor only timers and what is due of them have changed. -/
structure TimersOnly (c d : CueMonitor) : Prop where
  queue : d.queue = c.queue
  lastFired : d.lastFired = c.lastFired
  flashCount : d.flashCount = c.flashCount
  flagCount : d.flagCount = c.flagCount
  expired : d.expired = c.expired
  flashEndDue : d.flashEndDue = c.flashEndDue
  flagEndDue : d.flagEndDue = c.flagEndDue

theorem TimersOnly.rfl : TimersOnly c c := ⟨Eq.refl _, Eq.refl _, Eq.refl _, Eq.refl _, Eq.refl _, Eq.refl _, Eq.refl _⟩

theorem TimersOnly.trans {d e : CueMonitor} (h : TimersOnly c d) (k : TimersOnly d e) : TimersOnly c e where
  queue := k.queue.trans h.queue
  lastFired := k.lastFired.trans h.lastFired
  flashCount := k.flashCount.trans h.flashCount
  flagCount := k.flagCount.trans h.flagCount
  expired := k.expired.trans h.expired
  flashEndDue := k.flashEndDue.trans h.flashEndDue
  flagEndDue := k.flagEndDue.trans h.flagEndDue

theorem timersOnly_countTimer (n : TimerNo) (c : CueMonitor) : TimersOnly c (countTimer n c) := by
  rw [countTimer_eq]
  exact ⟨rfl, rfl, rfl, rfl, rfl, rfl, rfl⟩

theorem timersOnly_frameTimers : ∀ (l : List TimerNo) (c : CueMonitor), TimersOnly c (l.foldl frameTimer c)
  | [], _ => .rfl
  | n :: l, c => by
    refine TimersOnly.trans ?_ (timersOnly_frameTimers l _)
    rw [frameTimer_eq]
    split
    · exact timersOnly_countTimer n c
    · exact .rfl

/-- With nothing due, a frame start at the Cue Monitor (R145, R150). -/
theorem frameTimers_eq {d : CueMonitor} (hq : c.quiet = true)
    (hd : (List.finRange 6).foldl frameTimer (lowerCounts c) = d) :
    (∀ n : TimerNo, d.timers[n] = if c.counts n then c.timers[n].less else c.timers[n]) ∧
    d.expiring = (List.finRange 6).filter c.ends ∧
    d.flashEndDue = decide (c.flashCount = 1) ∧ d.flagEndDue = decide (c.flagCount = 1) := by
  obtain ⟨hf, hg, he⟩ : c.flashEndDue = false ∧ c.flagEndDue = false ∧ c.expiring = [] := by
    simpa [CueMonitor.quiet, and_assoc] using hq
  obtain ⟨ht, hx⟩ := foldl_frameTimer (List.finRange 6) (lowerCounts c) (List.pairwise_lt_finRange 6)
    (by rw [lowerCounts, he]; nofun)
  have ho := timersOnly_frameTimers (List.finRange 6) (lowerCounts c)
  rw [hd] at ht hx ho
  refine ⟨fun n => ?_, ?_, ?_, ?_⟩
  · rw [ht n]
    exact if_congr (and_iff_right (List.mem_finRange n)) rfl rfl
  · rw [hx, show (lowerCounts c).expiring = [] from he]
    rfl
  · rw [ho.flashEndDue, lowerCounts, hf]
    rfl
  · rw [ho.flagEndDue, lowerCounts, hg]
    rfl

/-- A frame start that finds the Cue Monitor with nothing else to take. -/
theorem exec_cueFrameStart {req : Bool} {frame : Half} {rest : List (Msg Half)}
    (hm : s.mail.cueFrames = { req := req, body := frame } :: rest) (h1 : s.mail.cueReports = [])
    (h2 : s.mail.cueJumps = []) (hq : s.cues.quiet = true) : exec .cueFrameStart s = .next (sendIfIdle ((cueFrame
      ((s.withMail { s.mail with cueFrames := rest }).withCause req)).withCause false)) := by
  have hr : cueReady ((s.withMail { s.mail with cueFrames := rest }).withCause req) =
      (s.withMail { s.mail with cueFrames := rest }).withCause req := cueReady_quiet hq h1 h2
  show ran (takeHead s.mail.cueFrames _ _ _ s) = _
  rw [hm, takeHead_some (x := frame) rfl, event, hr]
  rfl

theorem cueFrameStart_claim : Claims.CueFrameStart := by
  intro s req frame rest hm h1 h2 hq
  dsimp only
  obtain ⟨d, hd⟩ : ∃ d, (List.finRange 6).foldl frameTimer (lowerCounts s.cues) = d := ⟨_, rfl⟩
  obtain ⟨ht, hx, hf, hg⟩ := frameTimers_eq hq hd
  have ho := timersOnly_frameTimers (List.finRange 6) (lowerCounts s.cues)
  rw [hd] at ho
  have hc : cueFrame ((s.withMail { s.mail with cueFrames := rest }).withCause req) =
      ((s.withMail { s.mail with cueFrames := rest }).withCause req).withCues d := by
    rw [← hd]
    rfl
  have hexec := exec_cueFrameStart hm h1 h2 hq
  rw [hc] at hexec
  exact ⟨_, hexec, rfl, rfl, ho.queue, ho.lastFired, ho.expired, ho.flashCount, ho.flagCount, hf, hg, ht, hx⟩

/-! The ends of the two counts (R145) -/

theorem countsEnd_claim : Claims.CountsEnd := by
  intro s
  constructor
  · show Host.Outcome.next (sendIfIdle ((endFlash (s.withCause false)).withCause false)) = _
    cases h : s.cues.flashEndDue <;> rw [endFlash, State.withCause_cues, h] <;> rfl
  · show Host.Outcome.next (sendIfIdle ((endCueFlag (s.withCause false)).withCause false)) = _
    cases h : s.cues.flagEndDue <;> rw [endCueFlag, State.withCause_cues, h] <;> rfl

/-! An expiry (R151) -/

theorem Timer.afterExpiry_eq (x : Timer) : x.afterExpiry =
    if x.mode = .reload then { x with count := x.reload } else { x with running := false, count := 0 } := by
  unfold afterExpiry
  cases x.mode <;> rfl

/-- The STOP action sends a Stop, the LAMP action brings the flash count up (R151). -/
theorem expiryAction_eq (a : ExpiryAction) (s : State) : expiryAction a s = (s.withCues { s.cues with
      flashCount := if a = .lamp then max s.cues.flashCount 25 else s.cues.flashCount }).withMail { s.mail with
    engineStops := if a = .stop then s.mail.engineStops ++ [s.msg ()] else s.mail.engineStops
    flash := if a = .lamp ∧ s.cues.flashCount = 0 then s.mail.flash.map (· ++ [s.msg true]) else s.mail.flash } := by
  cases a with
  | none => rfl
  | stop => rfl
  | lamp =>
    rw [expiryAction, lampAction_eq (by decide)]
    by_cases h : s.cues.flashCount = 0 <;> simp only [h, if_true, if_false, and_self, and_false] <;> rfl

/-- Whether the expiry of timer `n` counts timer `m` down: a running CHAINED timer numbered one above (R150). -/
abbrev CueMonitor.chainedTo (c : CueMonitor) (n m : TimerNo) : Prop :=
  m.val = n.val + 1 ∧ c.timers[m].running = true ∧ c.timers[m].mode = .chained

theorem passExpiry_chained {n m : TimerNo} (h : c.chainedTo n m) : passExpiry n c = countTimer m c := by
  obtain ⟨k, hk⟩ := m
  obtain ⟨hm, hr⟩ := h
  obtain rfl : k = n.val + 1 := hm
  rw [passExpiry, dif_pos hk]
  exact if_pos hr

theorem passExpiry_none {n : TimerNo} (h : ∀ m, ¬ c.chainedTo n m) : passExpiry n c = c := by
  unfold passExpiry
  split
  · exact if_neg fun hr => h _ ⟨rfl, hr⟩
  · rfl

/-- An expiry counts at most one timer down, the one chained to it (R150). -/
theorem passExpiry_spec (n : TimerNo) (c : CueMonitor) : TimersOnly c (passExpiry n c) ∧
    (∀ m, (passExpiry n c).timers[m] = if c.chainedTo n m then c.timers[m].less else c.timers[m]) ∧
    ∀ m, m ∈ (passExpiry n c).expiring ↔ m ∈ c.expiring ∨ (c.chainedTo n m ∧ c.timers[m].count ≤ 1) := by
  by_cases h : ∃ k, c.chainedTo n k
  · obtain ⟨k, hk⟩ := h
    have one (m : TimerNo) : c.chainedTo n m ↔ m = k :=
      ⟨fun hm => Fin.ext (hm.1.trans hk.1.symm), fun e => e ▸ hk⟩
    rw [passExpiry_chained hk]
    refine ⟨timersOnly_countTimer k c, fun m => ?_, fun m => ?_⟩
    · rw [countTimer_eq]
      by_cases e : m = k
      · subst e
        rw [if_pos hk]
        exact withTimer_self
      · rw [if_neg ((one m).not.2 e)]
        exact withTimer_other e
    · rw [countTimer_eq, one]
      dsimp only
      split
      case isTrue hc =>
        rw [mem_dueWith]
        exact or_congr_right ⟨fun e => ⟨e, e ▸ hc⟩, And.left⟩
      case isFalse hc => exact (or_iff_left fun ⟨e, h1⟩ => hc (e ▸ h1)).symm
  · have none (m : TimerNo) : ¬ c.chainedTo n m := fun hm => h ⟨m, hm⟩
    rw [passExpiry_none none]
    exact ⟨.rfl, fun m => (if_neg (none m)).symm, fun m => (or_iff_left fun hm => none m hm.1).symm⟩

theorem exec_timerExpiry {rest : List TimerNo} (he : s.cues.expiring = n :: rest) (hf : s.cues.flashEndDue = false)
    (hg : s.cues.flagEndDue = false) : exec (.timerExpiry n) s =
      .next (sendIfIdle ((expireTimer n (s.withCause false)).withCause false)) := by
  have h1 : endFlash (s.withCause false) = s.withCause false := if_neg (Bool.eq_false_iff.1 hf)
  have h2 : endCueFlag (s.withCause false) = s.withCause false := if_neg (Bool.eq_false_iff.1 hg)
  show ran (ite _ _ _) = _
  rw [if_pos (by rw [he]; rfl), event, h1, h2]
  rfl

/-- The Cue Monitor when a timer expires, before the expiry is passed on: the expired set, the action's flash count and
the timer by its mode (R151). -/
def CueMonitor.expire (c : CueMonitor) (n : TimerNo) : CueMonitor :=
  { c with
    expiring := c.expiring.tail, expired := c.expired ||| byte (2 ^ n.val)
    flashCount := if c.timers[n].action = .lamp then max c.flashCount 25 else c.flashCount
    timers := (c.withTimer n c.timers[n].afterExpiry).timers }

/-- An expiry: its notice, its action's messages, and the Cue Monitor it leaves. -/
theorem expireTimer_eq (n : TimerNo) (s : State) : expireTimer n s = ((raise .timerExpired s).withMail { s.mail with
      engineStops := if s.cues.timers[n].action = .stop then s.mail.engineStops ++ [s.msg ()] else s.mail.engineStops
      flash := if s.cues.timers[n].action = .lamp ∧ s.cues.flashCount = 0 then s.mail.flash.map (· ++ [s.msg true])
        else s.mail.flash }).withCues (passExpiry n (s.cues.expire n)) := by
  rw [expireTimer, expiryAction_eq]
  rfl

theorem timerExpires_claim : Claims.TimerExpires := by
  intro s n rest he hf hg
  dsimp only
  have hexec := exec_timerExpiry he hf hg
  rw [expireTimer_eq] at hexec
  obtain ⟨ho, htimers, hdue⟩ := passExpiry_spec n (s.cues.expire n)
  have hn : (s.cues.expire n).timers[n] = s.cues.timers[n].afterExpiry := withTimer_self
  have hm {m : TimerNo} (h : m ≠ n) : (s.cues.expire n).timers[m] = s.cues.timers[m] := withTimer_other h
  have hnot {c : CueMonitor} : ¬ c.chainedTo n n := fun h => absurd h.1 (by omega)
  have hrest : (s.cues.expire n).expiring = rest := congrArg List.tail he
  refine ⟨_, hexec, ho.expired, rfl, ho.queue, ho.lastFired, ho.flagCount, ?_, rfl, ho.flashCount, rfl, fun m h => ?_,
    fun m => ?_⟩
  · exact ((htimers n).trans (if_neg hnot)).trans (hn.trans (Timer.afterExpiry_eq _))
  · exact (htimers m).trans
      (if_congr (by rw [CueMonitor.chainedTo, hm h]) (congrArg Timer.less (hm h)) (hm h))
  · refine (hdue m).trans ?_
    rw [hrest]
    by_cases h : m = n
    · subst h
      exact or_congr_right (iff_of_false (fun hc => hnot hc.1) fun hc => absurd hc.1 (by omega))
    · rw [CueMonitor.chainedTo, hm h, and_assoc, and_assoc]

/-- Settles O44: the frame start timer by timer, the ends of the counts, and an expiry with its one chained timer. -/
theorem cueTime : Obligations.CueTime := ⟨cueFrameStart_claim, countsEnd_claim, timerExpires_claim⟩

end timers
end Sys2Proof.Machine

namespace Sys2Proof.Machine

/-! ### The stretch of the scroll that a line stands in (R30, R31, R73) -/

section stretch
variable {t : ScriptTable} {es m m1 m2 : List Entry} {e : Entry} {b c : Nat} {r : Reach}

/-- The lines of the eligible stories among entries, in script order. -/
def ScriptTable.linesOf (t : ScriptTable) (es : List Entry) : List Nat :=
  es.flatMap (fun e => if t.standing e = .eligible then t.stories[e.slot].lines else [])

/-- A walk over entries without a GAP, up to the end or a GAP, meets their lines, nearest first. -/
theorem walk_gapless (back : Bool) : ∀ {es : List Entry} (z : List Entry), (∀ e ∈ es, t.standing e ≠ .gap) →
    (∀ e, z.head? = some e → t.standing e = .gap) →
    (t.walk back (es ++ z)).1 =
      es.flatMap (fun e => if t.standing e = .eligible then
        (if back then t.stories[e.slot].lines.reverse else t.stories[e.slot].lines) else [])
  | [], [], _, _ => rfl
  | [], e :: z, _, hz => by
    rw [List.nil_append, ScriptTable.walk, hz e rfl]
    rfl
  | e :: es, z, he, hz => by
    have ih := walk_gapless back z (fun x hx => he x (List.mem_cons_of_mem _ hx)) hz
    rw [List.cons_append, ScriptTable.walk, List.flatMap_cons]
    cases hs : t.standing e with
    | gap => exact absurd hs (he e List.mem_cons_self)
    | passed => exact ih
    | eligible => simp only [ih, if_true]

theorem walk_fore {z : List Entry} (he : ∀ e ∈ es, t.standing e ≠ .gap)
    (hz : ∀ e, z.head? = some e → t.standing e = .gap) : (t.walk false (es ++ z)).1 = t.linesOf es :=
  walk_gapless false z he hz

theorem walk_back {a : List Entry} (he : ∀ e ∈ es, t.standing e ≠ .gap)
    (ha : ∀ e, a.getLast? = some e → t.standing e = .gap) :
    (t.walk true (a ++ es).reverse).1 = (t.linesOf es).reverse := by
  rw [List.reverse_append, walk_gapless true a.reverse (fun e h => he e (List.mem_reverse.1 h))
    (fun e h => ha e (by rwa [List.head?_reverse] at h)), ScriptTable.linesOf, List.reverse_flatMap]
  congr 1
  funext e
  dsimp only [Function.comp]
  split <;> rfl

/-- The entries between two GAPs, or between a GAP and an end of the order. -/
structure ScriptTable.Stretch (t : ScriptTable) (m : List Entry) : Prop where
  gapless : ∀ e ∈ m, t.standing e ≠ .gap
  bounded : ∃ a z, t.order = a ++ m ++ z ∧ (∀ e, a.getLast? = some e → t.standing e = .gap) ∧
    ∀ e, z.head? = some e → t.standing e = .gap

/-- A block of an eligible story with all that can be reached from it, in script order. -/
def Reach.line (r : Reach) (b : Nat) : List Nat := r.back.reverse ++ b :: r.fore

theorem linesOf_append (es fs : List Entry) : t.linesOf (es ++ fs) = t.linesOf es ++ t.linesOf fs :=
  List.flatMap_append

theorem linesOf_cons_eligible (h : t.standing e = .eligible) (es : List Entry) :
    t.linesOf (e :: es) = t.stories[e.slot].lines ++ t.linesOf es := by
  rw [ScriptTable.linesOf, List.flatMap_cons, if_pos h]
  rfl

theorem mem_linesOf : c ∈ t.linesOf es ↔ ∃ e ∈ es, t.standing e = .eligible ∧ c ∈ t.stories[e.slot].lines := by
  rw [ScriptTable.linesOf, List.mem_flatMap]
  refine exists_congr fun e => and_congr_right fun _ => ?_
  split
  case isTrue h => exact (and_iff_right h).symm
  case isFalse h => exact iff_of_false List.not_mem_nil fun hc => h hc.1

/-- From a line of a stretch the whole stretch is in reach. -/
theorem reach_of_stretch (hd : t.Distinct) (hm : t.Stretch m) (hc : c ∈ t.linesOf m) :
    ∃ r, t.reach c = some r ∧ r.line c = t.linesOf m := by
  obtain ⟨e, he, hs, hce⟩ := mem_linesOf.1 hc
  obtain ⟨m1, m2, rfl⟩ := List.append_of_mem he
  obtain ⟨a, z, ho, ha, hz⟩ := hm.bounded
  have ho : t.order = (a ++ m1) ++ e :: (m2 ++ z) := by rw [ho]; simp
  obtain ⟨i, hl⟩ := locate_line hd.lines hce
  have hi : t.stories[e.slot].lines[i]? = some c := locate_some hl
  have hj : t.entryIndex e.slot = some (a ++ m1).length := entryIndex_entry hd.order (by rw [ho]; simp)
  have hk : t.eligible e.slot = true := (eligible_entry hd.order (by rw [ho]; simp)).2 hs
  have hback : t.order.take (a ++ m1).length = a ++ m1 := by rw [ho, List.take_left]
  have hfore : t.order.drop ((a ++ m1).length + 1) = m2 ++ z := by
    rw [ho, ← List.drop_drop, List.drop_left]
    rfl
  have hlines : t.stories[e.slot].lines =
      t.stories[e.slot].lines.take i ++ c :: t.stories[e.slot].lines.drop (i + 1) := by
    obtain ⟨hlt, hei⟩ := List.getElem?_eq_some_iff.1 hi
    rw [← hei, ← List.drop_eq_getElem_cons hlt, List.take_append_drop]
  have hwb := walk_back (t := t) (es := m1) (a := a) (fun x hx => hm.gapless x (by simp [hx])) ha
  have hwf := walk_fore (t := t) (es := m2) (z := z) (fun x hx => hm.gapless x (by simp [hx])) hz
  refine ⟨_, by simp only [ScriptTable.reach, hl, hj, hk, if_true]; rfl, ?_⟩
  dsimp only [Reach.line]
  rw [hback, hfore, hwb, hwf, linesOf_append, linesOf_cons_eligible hs]
  conv_rhs => rw [hlines]
  simp

/-- Entries up to the first GAP, or to the end. -/
theorem gapless_upTo (t : ScriptTable) : ∀ es : List Entry, ∃ u z, es = u ++ z ∧ (∀ e ∈ u, t.standing e ≠ .gap) ∧
    ∀ e, z.head? = some e → t.standing e = .gap
  | [] => ⟨[], [], rfl, nofun, nofun⟩
  | e :: es => by
    by_cases h : t.standing e = .gap
    · exact ⟨[], e :: es, rfl, nofun, fun f hf => Option.some.inj hf ▸ h⟩
    · obtain ⟨u, z, hes, hu, hz⟩ := gapless_upTo t es
      exact ⟨e :: u, z, congrArg (e :: ·) hes, List.forall_mem_cons.2 ⟨h, hu⟩, hz⟩

/-- Every entry that is no GAP stands in a stretch. -/
theorem stretch_of_entry (he : e ∈ t.order) (hg : t.standing e ≠ .gap) : ∃ m, t.Stretch m ∧ e ∈ m := by
  obtain ⟨x, y, ho⟩ := List.append_of_mem he
  obtain ⟨u, a, hx, hu, ha⟩ := gapless_upTo t x.reverse
  obtain ⟨v, z, hy, hv, hz⟩ := gapless_upTo t y
  have hx : x = a.reverse ++ u.reverse := by rw [← List.reverse_append, ← hx, List.reverse_reverse]
  refine ⟨u.reverse ++ e :: v, ⟨fun f hf => ?_, a.reverse, z, ?_, fun f hf => ha f ?_, hz⟩, by simp⟩
  · rcases List.mem_append.1 hf with hf | hf
    · exact hu f (List.mem_reverse.1 hf)
    · rcases List.mem_cons.1 hf with rfl | hf
      · exact hg
      · exact hv f hf
  · rw [ho, hx, hy]
    simp
  · rwa [List.getLast?_reverse] at hf

/-- What is in reach of a line is the stretch it stands in. -/
theorem stretch_of_reach (hd : t.Distinct) (hr : t.reach b = some r) :
    ∃ m, t.Stretch m ∧ b ∈ t.linesOf m ∧ r.line b = t.linesOf m := by
  obtain ⟨k, hk, hb⟩ := reach_mem hd.order hr List.mem_cons_self
  obtain ⟨he, -⟩ := (eligible_iff hd.order).1 hk
  have hs : t.standing { slot := k, floated := false } = .eligible := (eligible_entry hd.order he).1 hk
  obtain ⟨m, hm, hem⟩ := stretch_of_entry he (by rw [hs]; nofun)
  have hbm : b ∈ t.linesOf m := mem_linesOf.2 ⟨_, hem, hs, hb⟩
  obtain ⟨r', hr', hl⟩ := reach_of_stretch hd hm hbm
  cases hr.symm.trans hr'
  exact ⟨m, hm, hbm, hl⟩

/-- No line stands twice in a stretch. -/
theorem linesOf_nodup (hd : t.Distinct) (hm : t.Stretch m) : (t.linesOf m).Nodup := by
  obtain ⟨a, z, ho, -, -⟩ := hm.bounded
  have hslots : (m.map (·.slot)).Nodup := by
    have h := hd.order
    rw [ho, List.map_append, List.map_append] at h
    exact (List.nodup_append.1 (List.nodup_append.1 h).1).2.1
  refine List.nodup_flatMap.2 ⟨fun e _ => ?_, ?_⟩
  · split
    · exact (List.nodup_flatMap.1 hd.lines).1 _ (by simp)
    · exact List.nodup_nil
  · refine (List.pairwise_map.1 hslots).imp fun {e f} hne c hce hcf => ?_
    simp only [List.mem_ite_nil_right] at hce hcf
    exact hne (story_of_line hd.lines hce.2 hcf.2)

/-- From any line in reach the same lines are in reach, in the same order. -/
theorem reach_along (hd : t.Distinct) (hr : t.reach b = some r) (hc : c ∈ r.line b) :
    ∃ r', t.reach c = some r' ∧ r'.line c = r.line b := by
  obtain ⟨m, hm, -, hl⟩ := stretch_of_reach hd hr
  rw [hl] at hc ⊢
  exact reach_of_stretch hd hm hc

theorem reach_line_nodup (hd : t.Distinct) (hr : t.reach b = some r) : (r.line b).Nodup := by
  obtain ⟨m, hm, -, hl⟩ := stretch_of_reach hd hr
  exact hl ▸ linesOf_nodup hd hm

end stretch
/-! ### The lines of a forward span (R141, R143; log 11) -/

section span
variable {t : ScriptTable} {r r0 : Reach} {b c : Nat} {start stop : Pos} {f l x y : List Nat}

/-- A list without repeats is split at an element in one way. -/
theorem split_unique {x' y' : List Nat} (h : (x ++ c :: y).Nodup) (e : x' ++ c :: y' = x ++ c :: y) :
    x' = x ∧ y' = y := by
  have hc : c ∉ x ++ y := (List.nodup_cons.1 (List.nodup_middle.1 h)).1
  rw [List.mem_append, not_or] at hc
  obtain ⟨hx, -, hy⟩ := (List.append_cons_inj_of_notMem hc.1 hc.2).1 e.symm
  exact ⟨hx.symm, hy.symm⟩

theorem findIdx?_absent (h : b ∉ l) : l.findIdx? (· = b) = none :=
  List.findIdx?_eq_none_iff.2 fun a ha => decide_eq_false fun e : a = b => h (e ▸ ha)

theorem findIdx?_first (h : b ∉ x) : (x ++ b :: y).findIdx? (· = b) = some x.length := by
  rw [List.findIdx?_append, findIdx?_absent h]
  simp [List.findIdx?_cons]

/-- A span whose end lies ahead of its start: the lines up to the end. -/
theorem spanLines_ahead (h0 : t.reach start.block = some r0) (hl : r0.fore = x ++ stop.block :: y)
    (hx : stop.block ∉ x) (r : Reach) : spanLines t start stop r = x ++ [stop.block] := by
  simp only [spanLines, h0, hl, findIdx?_first hx]
  simp [List.take_append]

/-- A span whose end does not lie ahead of its start is empty. -/
theorem spanLines_off (h0 : t.reach start.block = some r0) (hn : stop.block ∉ r0.fore) (r : Reach) :
    spanLines t start stop r = [] := by
  simp only [spanLines, h0, findIdx?_absent hn]

/-- A span whose start has left the scroll (log 11). -/
theorem spanLines_gone (h0 : t.reach start.block = none) (r : Reach) :
    spanLines t start stop r = r.back.reverse ++ [stop.block] := by
  simp only [spanLines, h0]

/-- The lines of a forward span as the lines after its start, at or before its end (R141, R143). -/
theorem spanLines_eq (t : ScriptTable) (start stop : Pos) (r : Reach) : spanLines t start stop r =
    match t.reach start.block with
    | some r0 => if stop.block ∈ r0.fore then r0.fore.takeWhile (· ≠ stop.block) ++ [stop.block] else []
    | none => r.back.reverse ++ [stop.block] := by
  cases h0 : t.reach start.block with
  | none => exact spanLines_gone h0 r
  | some r0 =>
    dsimp only
    split
    · next hm =>
      obtain ⟨x, y, hl, hx⟩ := List.eq_append_cons_of_mem hm
      have hw : r0.fore.takeWhile (· ≠ stop.block) = x := by
        rw [hl, List.takeWhile_append_of_pos fun a ha => by simpa using fun e : a = stop.block => hx (e ▸ ha),
          List.takeWhile_cons_of_neg (by simp), List.append_nil]
      rw [hw]
      exact spanLines_ahead h0 hl hx r
    · next hm => exact spanLines_off h0 hm r

/-- A span is nothing, or the lines that lead to its end, and the end. -/
theorem spanLines_leads (hd : t.Distinct) (hr : t.reach stop.block = some r) (start : Pos) :
    spanLines t start stop r = [] ∨ ∃ f, f <:+ r.back.reverse ∧ spanLines t start stop r = f ++ [stop.block] := by
  cases h0 : t.reach start.block with
  | none => exact .inr ⟨_, List.suffix_refl _, spanLines_gone h0 r⟩
  | some r0 =>
    by_cases hm : stop.block ∈ r0.fore
    · obtain ⟨x, y, hl, hx⟩ := List.eq_append_cons_of_mem hm
      refine .inr ⟨x, ?_, spanLines_ahead h0 hl hx r⟩
      obtain ⟨r', hr', hline⟩ := reach_along hd h0 (c := stop.block) (by simp [Reach.line, hm])
      cases hr.symm.trans hr'
      have hsplit : r0.line start.block = (r0.back.reverse ++ start.block :: x) ++ stop.block :: y := by
        simp [Reach.line, hl]
      have hn := reach_line_nodup hd h0
      rw [hsplit] at hn
      rw [(split_unique hn (hline.trans hsplit)).1]
      exact ⟨r0.back.reverse ++ [start.block], by simp⟩
    · exact .inl (spanLines_off h0 hm r)

/-- From a line of a span on, the span is what is left of it. -/
theorem spanLines_from (hd : t.Distinct) (hr : t.reach stop.block = some r)
    (hs : spanLines t start stop r = x ++ c :: y) : spanLines t { block := c, sub := 0 } stop r = y := by
  obtain h | ⟨f, ⟨g, hf⟩, h⟩ := spanLines_leads hd hr start
  · rw [h] at hs
    simp at hs
  rw [h] at hs
  have hline : r.line stop.block = (g ++ x) ++ c :: (y ++ r.fore) := by
    rw [Reach.line, ← hf, ← List.singleton_append, ← List.append_assoc, List.append_assoc g, hs]
    simp
  obtain ⟨r', hr', hl⟩ := reach_along hd hr (c := c) (by rw [hline]; simp)
  have hn := reach_line_nodup hd hr
  rw [hline] at hn
  obtain ⟨-, hfore⟩ := split_unique hn (hl.trans hline)
  rcases List.eq_nil_or_concat y with rfl | ⟨y', z, rfl⟩
  · obtain ⟨-, hc⟩ := List.append_inj' hs rfl
    obtain rfl : stop.block = c := List.singleton_inj.1 hc
    refine spanLines_off hr' ?_ r
    rw [hfore]
    exact fun hm => (List.nodup_cons.1 (List.nodup_middle.1 hn)).1 (List.mem_append_right _ hm)
  · rw [List.concat_eq_append] at hs hn hfore ⊢
    obtain ⟨-, hz⟩ := List.append_inj' (hs.trans (List.append_assoc x (c :: y') [z]).symm) rfl
    obtain rfl : stop.block = z := List.singleton_inj.1 hz
    refine spanLines_ahead hr' (y := r.fore) (by rw [hfore]; simp) (fun hm => ?_) r
    have h2 := (List.nodup_cons.1 (List.nodup_append.1 hn).2.1).2
    rw [List.append_assoc, List.singleton_append] at h2
    exact (List.nodup_cons.1 (List.nodup_middle.1 h2)).1 (List.mem_append_left _ hm)

end span
end Sys2Proof.Machine

namespace Sys2Proof.Machine

/-! ### The scan and the refill of the queue (R138, R140) -/

theorem mem_markersOf (t : TextStore) (bs : List Nat) (e : CueEntry) : e ∈ markersOf t bs ↔
    e.skipped = false ∧ e.block ∈ bs ∧
      ∃ r, (t.read e.block).record = some r ∧ r.marker = some { kind := e.kind, param := e.param } := by
  simp only [markersOf, List.mem_filterMap, Option.map_eq_some_iff, Option.bind_eq_some_iff]
  constructor
  · rintro ⟨b, hb, m, ⟨r, hr, hm⟩, rfl⟩
    exact ⟨rfl, hb, r, hr, hm⟩
  · rintro ⟨hs, hb, r, hr, hm⟩
    refine ⟨e.block, hb, _, ⟨r, hr, hm⟩, ?_⟩
    rw [← hs]

/-- The scan keeps the order of the lines. -/
theorem markersOf_blocks (t : TextStore) (bs : List Nat) : List.Sublist ((markersOf t bs).map (·.block)) bs := by
  induction bs with
  | nil => exact .slnil
  | cons b bs ih =>
    unfold markersOf
    rw [List.filterMap_cons]
    cases (t.read b).record.bind (·.marker) with
    | none => exact ih.cons b
    | some m => exact ih.cons_cons b

/-- The refill scans on from the line of the last entry, or from the line given (R140). -/
theorem refill_lost {t : ScriptTable} {line last : Nat} {q : List CueEntry}
    (hl : (q.getLast?.map (·.block)).getD line = last) (hr : t.reach last = none) (st : TextStore) :
    refill t st line q = q := by
  simp only [refill, hl, hr]

theorem refill_reach {t : ScriptTable} {line last : Nat} {q : List CueEntry} {r : Reach}
    (hl : (q.getLast?.map (·.block)).getD line = last) (hr : t.reach last = some r) (st : TextStore) :
    refill t st line q =
      q ++ ((markersOf st r.fore).filter (fun e => q.all (fun o => o.block ≠ e.block))).take (16 - q.length) := by
  have hp : (fun e : CueEntry => !q.any (fun o => o.block = e.block)) =
      fun e => q.all (fun o => o.block ≠ e.block) := by
    funext e
    simp [List.all_eq_not_any_not]
  simp only [refill, hl, hr, hp, Config.cueDepth]

theorem queueRefilled_claim : Claims.QueueRefilled := by
  refine ⟨mem_markersOf, markersOf_blocks, fun t st line q => ⟨fun hn => ?_, fun r hr => ?_⟩⟩
  · exact refill_lost (by cases q.getLast? <;> rfl) hn st
  · exact refill_reach (by cases q.getLast? <;> rfl) hr st

/-! ### The passage check, entry by entry (R141 to R143) -/

/-- The Cue Monitor has nothing else to take, and nothing left of a frame start. -/
structure State.CueIdle (s : State) : Prop where
  reports : s.mail.cueReports = []
  jumps : s.mail.cueJumps = []
  quiet : s.cues.quiet = true

section pass
variable {s : State} {start stop : Pos} {mode : CheckMode} {r : Reach} {e : CueEntry} {x y : List Nat} {j : Nat}

theorem State.CueIdle.ready (h : s.CueIdle) : cueReady s = s := cueReady_quiet h.quiet h.reports h.jumps

/-- What fires brings no message to the Cue Monitor, and no expiry. -/
theorem State.CueIdle.fire (h : s.CueIdle) (e : CueEntry) : (fire e s).CueIdle := by
  have timer {f : TimerNo → State → State} (hf : ∀ m u, State.CueIdle u → (f m u).CueIdle) (n : Nat) (u : State)
      (hu : u.CueIdle) : (timerOf n f u).CueIdle := by
    unfold timerOf
    split
    · exact hf _ _ hu
    · exact hu
  have action (k : MarkerKind) (n : Nat) (u : State) (hu : u.CueIdle) : (markerAction k n u).CueIdle := by
    cases k
    · exact hu
    · exact hu
    · exact timer (f := startTimer) (fun _ _ hu => ⟨hu.reports, hu.jumps, hu.quiet⟩) n u hu
    · exact timer (f := stopTimer) (fun _ _ hu => ⟨hu.reports, hu.jumps, hu.quiet⟩) n u hu
    · unfold markerAction lampAction
      dsimp only
      split <;> exact ⟨hu.reports, hu.jumps, hu.quiet⟩
    · unfold markerAction headFlagAction
      dsimp only
      split <;> exact ⟨hu.reports, hu.jumps, hu.quiet⟩
  unfold Machine.fire
  exact action _ _ _ ⟨h.reports, h.jumps, h.quiet⟩

/-- A check whose end stands in no eligible story (R143). -/
theorem passageCheck_lost (h : s.CueIdle) (hr : s.script.reach stop.block = none) (fwd : Bool) :
    passageCheck start stop fwd mode s = (s, none) := by
  unfold passageCheck
  simp only [h.ready, hr]

theorem passageCheck_backward (h : s.CueIdle) (hr : s.script.reach stop.block = some r) :
    passageCheck start stop false mode s = (rebuildAt (some stop) s, none) := by
  unfold passageCheck
  simp only [h.ready, hr, Bool.false_eq_true, if_false]

theorem passageCheck_forward (h : s.CueIdle) (hr : s.script.reach stop.block = some r) :
    passageCheck start stop true mode s = passLines mode (spanLines s.script start stop r) s := by
  unfold passageCheck
  simp only [h.ready, hr, if_true]

/-- Nothing fires in a SILENT check. -/
theorem passLines_silent : ∀ (bs : List Nat) (s : State), (passLines .silent bs s).2 = none ∧
    (passLines .silent bs s).1.link = s.link ∧ (passLines .silent bs s).1.cues.lastFired = s.cues.lastFired
  | [], _ => ⟨rfl, rfl, rfl⟩
  | b :: bs, s => by
    unfold passLines
    split
    · exact passLines_silent bs s
    · rw [if_pos (.inl rfl)]
      exact passLines_silent bs (dropEntry b s)

theorem passageCheck_silent (h : s.CueIdle) (fwd : Bool) : (passageCheck start stop fwd .silent s).2 = none ∧
    (passageCheck start stop fwd .silent s).1.link = s.link ∧
    (passageCheck start stop fwd .silent s).1.cues.lastFired = s.cues.lastFired := by
  cases hr : s.script.reach stop.block with
  | none => rw [passageCheck_lost h hr]; exact ⟨rfl, rfl, rfl⟩
  | some r =>
    cases fwd with
    | false => rw [passageCheck_backward h hr]; exact ⟨rfl, rfl, rfl⟩
    | true => rw [passageCheck_forward h hr]; exact passLines_silent _ _

/-- The first entry of a line is the one that is removed. -/
theorem dropEntry_first (he : s.cues.queue[j]? = some e) (hf : ∀ o ∈ s.cues.queue.take j, o.block ≠ e.block) :
    dropEntry e.block s = s.withCues { s.cues with
      queue := refill s.script s.store e.block (s.cues.queue.eraseIdx j) } := by
  obtain ⟨hj, hje⟩ := List.getElem?_eq_some_iff.1 he
  have hx : s.cues.queue.eraseP (·.block = e.block) = s.cues.queue.eraseIdx j := by
    rw [List.eraseP_eq_eraseIdx, List.findIdx?_eq_some_iff_getElem.2 ⟨hj, by simp [hje], fun i hi => ?_⟩]
    simpa using hf _ (List.mem_take_iff_getElem.2 ⟨i, by omega, rfl⟩)
  rw [dropEntry, hx]
  rfl

/-- The first line of the span with an entry queued is taken. -/
theorem passLines_turn (mode : CheckMode) (he : s.cues.queue[j]? = some e)
    (hf : ∀ o ∈ s.cues.queue.take j, o.block ≠ e.block) (hx : ∀ b ∈ x, ∀ o ∈ s.cues.queue, o.block ≠ b)
    (y : List Nat) : passLines mode (x ++ e.block :: y) s =
      (let u := dropEntry e.block s
       if mode = .silent ∨ e.skipped then passLines mode y u
       else if e.kind = .pause then (fire e u, some e.block) else passLines mode y (fire e u)) := by
  rw [passLines_append mode hx, passLines]
  simp only [find?_of_first he hf]

/-- From the line of the entry on, a check of the part that is left of the span. -/
theorem passageCheck_rest (hd : s.script.Distinct) (hr : s.script.reach stop.block = some r)
    (hs : spanLines s.script start stop r = x ++ e.block :: y) {u : State} (hu : u.CueIdle)
    (hk : u.script = s.script) : passageCheck { block := e.block, sub := 0 } stop true mode u = passLines mode y u := by
  rw [passageCheck_forward hu (hk.symm ▸ hr), hk, spanLines_from hd hr hs]

theorem spanPassed_claim : Claims.SpanPassed := by
  intro s start stop mode h1 h2 hq
  have hi : s.CueIdle := ⟨h1, h2, hq⟩
  refine ⟨fun hr fwd => passageCheck_lost hi hr fwd, fun r hr => ?_, fun hm fwd => ?_, fun r hst hsc hr => ?_⟩
  · rw [passageCheck_backward hi hr, rebuildAt, rebuilt, hr]
    rfl
  · subst hm
    exact passageCheck_silent hi fwd
  · have hd : s.script.Distinct := TextInv.distinct ⟨hst, hsc⟩
    intro span queued
    have hspan : spanLines s.script start stop r = span := spanLines_eq _ _ _ _
    clear_value span
    subst hspan
    refine ⟨fun hn => ?_, fun i j e he hspan hn hf => ?_⟩
    · rw [passageCheck_forward hi hr, ← List.append_nil (spanLines _ _ _ _), passLines_append mode fun b hb o ho hob =>
        hn b hb ⟨o, ho, hob⟩]
      rfl
    · obtain ⟨hlt, hei⟩ := List.getElem?_eq_some_iff.1 hspan
      have hsplit : spanLines s.script start stop r = (spanLines s.script start stop r).take i ++
          e.block :: (spanLines s.script start stop r).drop (i + 1) := by
        rw [← hei, ← List.drop_eq_getElem_cons hlt, List.take_append_drop]
      have hdrop := dropEntry_first he hf
      have hu : (dropEntry e.block s).CueIdle := ⟨h1, h2, hq⟩
      have hturn := passLines_turn mode he hf (fun b hb o ho hob => hn b hb ⟨o, ho, hob⟩)
        ((spanLines s.script start stop r).drop (i + 1))
      rw [← hsplit, ← passageCheck_forward hi hr] at hturn
      rw [← hdrop]
      refine ⟨fun hs => ?_, fun hm hs hk => ?_, fun hm hs hk => ?_⟩
      · rw [hturn, passageCheck_rest hd hr hsplit hu rfl]
        exact if_pos hs
      · have hno : ¬(mode = .silent ∨ e.skipped = true) := by simp [hm, hs]
        exact hturn.trans ((if_neg hno).trans (if_pos hk))
      · have hno : ¬(mode = .silent ∨ e.skipped = true) := by simp [hm, hs]
        rw [passageCheck_rest hd hr hsplit (hu.fire e) (cueAside_fire e).script]
        exact hturn.trans ((if_neg hno).trans (if_neg hk))

/-- Settles O41: a span leads through one stretch to its end, so what is left of it after an entry is a span again. -/
theorem passageCheck_claims : Obligations.PassageCheck := ⟨spanPassed_claim, queueRefilled_claim⟩

end pass
end Sys2Proof.Machine

namespace Sys2Proof.Machine

/-! ### How a frame starts (R155, R156, R159, R160) -/

section frames
variable {s u : State} {c : FrameClock} {now last run : Nat}

/-- The outcome of an event that no request brings, by what its work makes of the part. -/
theorem event_next {f : State → State} (hf : f (s.withCause false) = u) (hu : u.cause = false) :
    ran (event false f s) = .next (sendIfIdle u) := by
  rw [event, hf, ← hu, State.withCause_self]
  rfl

theorem FrameClock.freeRunDue_iff : c.freeRunDue now = true ↔ c.lock ≠ .locked ∧ c.lastStart + c.interval ≤ now := by
  simp [freeRunDue]

theorem FrameClock.flywheelDue_iff :
    c.flywheelDue now = true ↔ c.lock = .locked ∧ c.lastStart + c.period + c.period / 4 ≤ now := by
  simp [flywheelDue]

theorem FrameClock.good_iff :
    c.good last now = true ↔ c.period - c.period / 8 ≤ now - last ∧ now - last ≤ c.period + c.period / 8 := by
  simp [good]

/-- The messages of a frame start, which carry the counter as it is after it (R155). -/
def State.frameMail (s : State) : Mail :=
  { s.mail with
    engineFrames := s.mail.engineFrames ++ [s.msg (s.clock.counter + 1)]
    cueFrames := s.mail.cueFrames ++ [s.msg (s.clock.counter + 1)] }

theorem frameStart_eq (s : State) : frameStart s = (s.withClock (s.clock.start s.now)).withMail s.frameMail := rfl

/-! Pulses -/

theorem lockedPulse_starts (h : s.clock.lastStart + s.clock.period / 2 ≤ s.now) : lockedPulse s =
    (s.withClock { s.clock.start s.now with flywheel := 0 }).withMail s.frameMail := by
  rw [lockedPulse, if_pos h, frameStart_eq]
  rfl

theorem lockedPulse_early (h : ¬s.clock.lastStart + s.clock.period / 2 ≤ s.now) : lockedPulse s = s := if_neg h

theorem takePulse_free (h : s.clock.mode = .free) : takePulse s = s := by
  simp only [takePulse, h]

theorem takePulse_locked (hm : s.clock.mode = .lock) (hl : s.clock.lock = .locked) :
    takePulse s = lockedPulse (s.withClock { s.clock with lastPulse := some s.now }) := by
  simp only [takePulse, hm, hl]

theorem takePulse_hunting (hm : s.clock.mode = .lock) (hl : s.clock.lock = .hunting ∨ s.clock.lock = .lost) :
    takePulse s = huntingPulse s := by
  rcases hl with hl | hl <;> simp only [takePulse, hm, hl]

/-- The run of good pulses with a pulse after the last one (R159). -/
def FrameClock.runAfter (c : FrameClock) (last now : Nat) : Nat :=
  if c.period - c.period / 8 ≤ now - last ∧ now - last ≤ c.period + c.period / 8 then c.goodRun + 1 else 0

/-- The part as the second good pulse in a row brings it to LOCKED, before the frame it may start (R159). -/
def State.locking (s : State) : State :=
  let locked := { s.clock with
    lastPulse := some s.now, goodRun := 2, lock := .locked, flywheel := 0
    event := if s.clock.lock = .lost then some .found else s.clock.event }
  if s.clock.lock = .lost then raise .reference (s.withClock locked) else s.withClock locked

@[simp] theorem State.locking_clock (s : State) : s.locking.clock = { s.clock with
    lastPulse := some s.now, goodRun := 2, lock := .locked, flywheel := 0
    event := if s.clock.lock = .lost then some .found else s.clock.event } := by
  unfold locking; split <;> rfl
@[simp] theorem State.locking_mail (s : State) : s.locking.mail = s.mail := by unfold locking; split <;> rfl
@[simp] theorem State.locking_now (s : State) : s.locking.now = s.now := by unfold locking; split <;> rfl
@[simp] theorem State.locking_cause (s : State) : s.locking.cause = s.cause := by unfold locking; split <;> rfl

theorem huntingPulse_first (h : s.clock.lastPulse = none) :
    huntingPulse s = s.withClock { s.clock with lastPulse := some s.now } := by
  simp only [huntingPulse, h]

/-- A later pulse, by the run that it makes. -/
theorem huntingPulse_later (h : s.clock.lastPulse = some last) (hr : s.clock.runAfter last s.now = run) :
    huntingPulse s = if run = 2 then lockedPulse s.locking
      else s.withClock { s.clock with lastPulse := some s.now, goodRun := run } := by
  have hg : (if s.clock.good last s.now = true then s.clock.goodRun + 1 else 0) = run :=
    (if_congr FrameClock.good_iff rfl rfl).trans hr
  simp only [huntingPulse, h, hg]
  split
  case isTrue h2 =>
    subst h2
    unfold State.locking
    by_cases hl : s.clock.lock = .lost
    · simp only [hl, if_true]
    · simp only [hl, if_false]
  case isFalse => rfl

/-- The pulse that locks starts a frame when half a period has passed since the last start (R159, R160). -/
theorem lockedPulse_locking (h : s.clock.lastStart + s.clock.period / 2 ≤ s.now) : lockedPulse s.locking =
    (s.locking.withClock (s.locking.clock.start s.now)).withMail s.frameMail := by
  rw [lockedPulse_starts (by simpa using h)]
  simp [State.frameMail, FrameClock.start, State.msg]

/-! The flywheel -/

/-- The frames that the flywheel starts: the third one ends LOCKED (R160). -/
theorem exec_flywheelFrame_due (h : s.clock.flywheelDue s.now = true) :
    exec .flywheelFrame s = .next (sendIfIdle
      (let u := frameStart (s.withCause false)
       if s.clock.flywheel = 2 then
         raise .reference (u.withClock { u.clock.forget with lock := .lost, event := some .lost })
       else u.withClock { u.clock with flywheel := s.clock.flywheel + 1 })) := by
  refine event_next ((if_pos h).trans (if_congr ?_ rfl rfl)) (by dsimp only; split <;> rfl)
  exact Nat.add_right_cancel_iff (n := 1) (k := 2)

/-- Settles O57, by what makes each frame start and, for a pulse, by the run that it makes. -/
theorem frameStarts : Obligations.FrameStarts := by
  intro s
  dsimp only
  have hunting := takePulse_hunting (s := s.withCause false)
  have later {last : Nat} (h : s.clock.lastPulse = some last) := huntingPulse_later (s := s.withCause false) h rfl
  refine ⟨?_, ?_, fun hm => event_next (takePulse_free hm) rfl, fun hm hl => ?_,
    fun hm hl => ⟨fun hn => ?_, fun last hlast => ⟨fun hne => ?_, fun h2 => ?_⟩⟩⟩
  · split
    case isTrue h => exact event_next (if_pos (FrameClock.freeRunDue_iff.2 h)) rfl
    case isFalse h => exact event_next (if_neg (mt FrameClock.freeRunDue_iff.1 h)) rfl
  · split
    case isTrue h => exact exec_flywheelFrame_due (FrameClock.flywheelDue_iff.2 h)
    case isFalse h => exact event_next (if_neg (mt FrameClock.flywheelDue_iff.1 h)) rfl
  · have hp := takePulse_locked (s := s.withCause false) hm hl
    split
    case isTrue h => exact event_next (hp.trans (lockedPulse_starts h)) rfl
    case isFalse h => exact event_next (hp.trans (lockedPulse_early h)) rfl
  · exact event_next ((hunting hm hl).trans (huntingPulse_first hn)) rfl
  · exact event_next ((hunting hm hl).trans ((later hlast).trans (if_neg hne))) rfl
  · have hp := (hunting hm hl).trans ((later hlast).trans (if_pos h2))
    have hc : (s.withCause false).locking.cause = false := State.locking_cause _
    split
    case isTrue h =>
      refine event_next (hp.trans ((lockedPulse_locking (s := s.withCause false) h).trans ?_)) hc
      rw [State.locking_clock]
      rfl
    case isFalse h => exact event_next (hp.trans (lockedPulse_early (by simpa using h))) hc

end frames
end Sys2Proof.Machine

namespace Sys2Proof.Machine

/-! ### The requests of the Frame Clock (R156 to R158, R162) -/

section requests
variable {s : State} {c : FrameClock} {period : Nat} {trim : Int}

/-- Leaving LOCKED touches the interval alone (R156). -/
theorem FrameClock.leaveLocked_eq (c : FrameClock) (was : LockState) : c.leaveLocked was =
    { c with interval := if was = .locked then c.freeInterval else c.interval } := by
  unfold leaveLocked
  split <;> rfl

theorem FrameClock.setFrame_kept (h : period = c.period ∨ c.mode = .free) :
    c.setFrame period trim = { c with period := period, trim := trim } := if_pos h

/-- A new period in mode LOCK restarts hunting (R157). -/
theorem FrameClock.setFrame_restarts (hp : period ≠ c.period) (hm : c.mode = .lock) : c.setFrame period trim =
    { c with
      period := period, trim := trim, lock := .hunting, lastPulse := none, goodRun := 0, flywheel := 0
      interval := if c.lock = .locked then ((period : Int) + trim).toNat else c.interval } := by
  have hn : ¬(period = c.period ∨ c.mode = .free) := not_or.2 ⟨hp, by rw [hm]; nofun⟩
  exact (if_neg hn).trans (leaveLocked_eq _ _)

theorem FrameClock.setMode_same (c : FrameClock) : c.setMode c.mode = c := if_pos rfl

theorem FrameClock.setMode_lock (h : c.mode = .free) : c.setMode .lock =
    { c with mode := .lock, lock := .hunting, lastPulse := none, goodRun := 0, flywheel := 0 } :=
  if_neg (by rw [h]; nofun)

theorem FrameClock.setMode_free (h : c.mode = .lock) : c.setMode .free =
    { c with
      mode := .free, lock := .free, lastPulse := none, goodRun := 0, flywheel := 0
      interval := if c.lock = .locked then ((c.period : Int) + c.trim).toNat else c.interval } :=
  (if_neg (by rw [h]; nofun)).trans (leaveLocked_eq _ _)

/-- The mode field: a mode's own code, or none of them (R158). -/
theorem RefMode.ofCode_code (m : RefMode) : RefMode.ofCode m.code.toNat = some m := by
  cases m <;> rfl

theorem RefMode.ofCode_range : ∀ {n : Nat}, 2 ≤ n → RefMode.ofCode n = none
  | _ + 2, _ => rfl

/-- Set Frame with a period in range, by the clock that it leads to. -/
theorem exec_setFrame {body : List Byte} {d : FrameClock} (h : Serving s 0x58 body)
    (hp : 8000 ≤ u16 body 0 ∧ u16 body 0 ≤ 42000) (hd : s.clock.setFrame (u16 body 0) (s8 body 2) = d) :
    exec .setFrame s = .next (answered s .done [] (s.withClock d)) := by
  subst hd
  exact congrArg Host.Outcome.next (runRequest_done h rfl (if_pos hp) rfl rfl)

/-- Set Reference with the code of a mode, by the clock that it leads to. -/
theorem exec_setReference {m : RefMode} {d : FrameClock} (h : Serving s 0x59 [m.code]) (hd : s.clock.setMode m = d) :
    exec .setReference s = .next (answered s .done [] (s.withClock d)) := by
  subst hd
  refine congrArg Host.Outcome.next (runRequest_done h rfl ?_ rfl rfl)
  have hm : RefMode.ofCode (u8 [m.code] 0) = some m := RefMode.ofCode_code m
  simp only [setReference, hm]
  rfl

theorem setReference_range {b : Byte} (h : 2 ≤ b.toNat) (s : State) : setReference [b] s = refuse .range s := by
  have hm : RefMode.ofCode (u8 [b] 0) = none := RefMode.ofCode_range h
  simp only [setReference, hm]

/-- Settles O58: each request by the clock that it leads to; the query leaves the clock as it is. -/
theorem clockRequests : Obligations.ClockRequests := by
  intro s
  refine ⟨fun body h => ⟨fun hr => ?_, fun hlo hhi => ⟨fun hk => ?_, fun hp hm => ?_⟩⟩,
    fun b h => ⟨fun hr => ?_, fun hb => ?_, fun hb hm => ?_, fun hb hm => ?_⟩, fun h => ?_⟩
  · exact congrArg Host.Outcome.next (runRequest_refused h rfl (if_neg (by omega)))
  · exact exec_setFrame h ⟨hlo, hhi⟩ (FrameClock.setFrame_kept hk)
  · exact exec_setFrame h ⟨hlo, hhi⟩ (FrameClock.setFrame_restarts hp hm)
  · exact congrArg Host.Outcome.next (runRequest_refused h rfl (setReference_range hr _))
  · subst hb
    exact exec_setReference h (FrameClock.setMode_same _)
  · subst hb
    exact exec_setReference (m := .lock) h (FrameClock.setMode_lock hm)
  · subst hb
    exact exec_setReference (m := .free) h (FrameClock.setMode_free hm)
  · exact congrArg Host.Outcome.next (runRequest_done h rfl rfl rfl rfl)

end requests
end Sys2Proof.Machine

namespace Sys2Proof.Machine

/-! ### The facts of a Head Link, operation by operation (R164, R165, R169, R172) -/

section head
variable {hd : Head} {s t : State} {h : HeadNo}

/-! Building a view (R169, R172) -/

theorem rowsFrom_length (t : TextStore) (n : Nat) (bs : List Nat) (gap : Bool) : (rowsFrom t n bs gap).length = n := by
  simp only [rowsFrom, List.length_take, List.length_append, List.length_replicate]
  omega

theorem tableAround_length {v : ViewSettings} (hr : v.readingRow < v.rows) (t : TextStore) (b : Nat) (r : Reach) :
    (tableAround t v b r).length = v.rows + 1 := by
  simp only [tableAround, List.length_append, List.length_reverse, List.length_cons, rowsFrom_length]
  omega

/-- Every view has its rows + 1 entries (R169). -/
theorem viewRows_length {v : ViewSettings} (hr : v.readingRow < v.rows) (s : State) (b : Option Nat) :
    (viewRows s v b).1.length = v.rows + 1 := by
  unfold viewRows
  split
  · exact List.length_replicate
  · split
    · exact tableAround_length hr _ _ _
    · exact List.length_replicate

/-- At most two views are held, of different frame numbers (R172). -/
theorem enterHistory_bounded {v : View} {l : List View} (hl : l.length ≤ 2) (hn : (l.map (·.frame)).Nodup) :
    (enterHistory v l).length ≤ 2 ∧ ((enterHistory v l).map (·.frame)).Nodup := by
  have joined {k : List View} (hk : k.length ≤ 1) (hkn : (k.map (·.frame)).Nodup) (hv : ∀ x ∈ k, x.frame ≠ v.frame) :
      (k ++ [v]).length ≤ 2 ∧ ((k ++ [v]).map (·.frame)).Nodup := by
    refine ⟨by simpa using hk, ?_⟩
    rw [List.map_append, List.nodup_append]
    refine ⟨hkn, List.nodup_singleton _, fun a ha b hb => ?_⟩
    obtain ⟨x, hx, rfl⟩ := List.mem_map.1 ha
    rw [List.mem_singleton.1 hb]
    exact hv x hx
  unfold enterHistory
  split
  case isTrue ha =>
    obtain ⟨x, hx, he⟩ := List.any_eq_true.1 ha
    have hlt : (l.filter (fun y => y.frame ≠ v.frame)).length < l.length :=
      List.length_filter_lt_length_iff_exists.2 ⟨x, hx, by simpa using he⟩
    refine joined (by omega) (hn.sublist (List.filter_sublist.map _)) fun y hy => ?_
    exact of_decide_eq_true (List.mem_filter.1 hy).2
  case isFalse ha =>
    have hv : ∀ x ∈ l, x.frame ≠ v.frame := fun x hx e => ha (List.any_eq_true.2 ⟨x, hx, decide_eq_true e⟩)
    split
    · exact joined (by omega) hn hv
    · exact joined (by rw [List.length_drop]; omega) (hn.sublist ((List.drop_sublist _ _).map _))
        fun x hx => hv x (List.mem_of_mem_drop hx)

theorem mem_enterHistory {v x : View} {l : List View} (hx : x ∈ enterHistory v l) : x ∈ l ∨ x = v := by
  unfold enterHistory at hx
  split at hx
  · exact (List.mem_append.1 hx).imp (fun m => (List.mem_filter.1 m).1) List.mem_singleton.1
  · refine (List.mem_append.1 hx).imp (fun m => ?_) List.mem_singleton.1
    split at m
    · exact m
    · exact List.mem_of_mem_drop m

/-- A view record takes the place of one that waits (R165). -/
theorem listView_views {v : View} {q : List HeadFrame} (h : (q.filter HeadFrame.isView).length ≤ 1) :
    ((listView v q).filter HeadFrame.isView).length ≤ 1 := by
  have kept (f : HeadFrame) : (if f.isView then HeadFrame.view v else f).isView = f.isView := by cases f <;> rfl
  unfold listView
  split
  · rw [List.filter_map, List.length_map, Function.comp_def]
    simpa only [kept] using h
  case isFalse hn =>
    have hq : q.filter HeadFrame.isView = [] :=
      List.filter_eq_nil_iff.2 fun f hf he => hn (List.any_eq_true.2 ⟨f, hf, he⟩)
    rw [List.filter_append, hq]
    exact Nat.le_refl 1

/-- ... and leaves the fetch replies. -/
theorem listView_replies (v : View) (q : List HeadFrame) :
    ((listView v q).filter (fun f => !f.isView)).length = (q.filter (fun f => !f.isView)).length := by
  have kept (f : HeadFrame) : (if f.isView then HeadFrame.view v else f).isView = f.isView := by cases f <;> rfl
  unfold listView
  split
  · rw [List.filter_map, List.length_map, Function.comp_def]
    simp only [kept]
  · rw [List.filter_append]
    exact congrArg List.length (List.append_nil _)

/-! What an operation does to the facts -/

/-- The parts that the facts do not go by. -/
theorem HeadInv.withLine (hi : HeadInv hd) (since : Nat) (sending : Option HeadFrame) (flag : Bool) (rx : LinkRx) :
    HeadInv { hd with silentSince := since, sending := sending, cueFlag := flag, rx := rx } :=
  ⟨hi.history, hi.tables, hi.views, hi.replies, hi.down, hi.settings⟩

theorem HeadInv.withSettings (hi : HeadInv hd) {v : ViewSettings}
    (hv : 4 ≤ v.rows ∧ v.rows ≤ 24 ∧ v.readingRow < v.rows) :
    HeadInv { hd with settings := v } :=
  ⟨hi.history, hi.tables, hi.views, hi.replies, hi.down, hv⟩

/-- Nothing held and nothing waiting, in either link state (R164, R177). -/
theorem HeadInv.emptied (hi : HeadInv hd) (up : Bool) : HeadInv { hd with up := up, history := [], queue := [] } :=
  ⟨⟨Nat.zero_le _, .nil⟩, nofun, Nat.zero_le _, Nat.zero_le _, fun _ => ⟨rfl, rfl⟩, hi.settings⟩

theorem HeadInv.scopeReset (hi : HeadInv hd) (h : HeadNo) : HeadInv (hd.scopeReset h) :=
  (hi.emptied hd.up).withSettings (reset_headInv h).settings

/-- A view enters the history and its record the transmit list (R165, R172). -/
theorem HeadInv.viewed (hi : HeadInv hd) (hup : hd.up = true) {v : View} (hv : v.table.length = v.rows + 1) :
    HeadInv { hd with history := enterHistory v hd.history, queue := listView v hd.queue } where
  history := enterHistory_bounded hi.history.1 hi.history.2
  tables x hx := (mem_enterHistory hx).elim (hi.tables x) fun e => e ▸ hv
  views := listView_views hi.views
  replies := (listView_replies v hd.queue).trans_le hi.replies
  down e := absurd (hup.symm.trans e) nofun
  settings := hi.settings

/-- A fetch is answered only while fewer than 16 replies wait (R165). -/
theorem HeadInv.takeFetch (hi : HeadInv hd) (hup : hd.up = true) (frame : Half) (row : Nat) (t : TextStore) :
    HeadInv (takeFetch frame row t hd) := by
  unfold Machine.takeFetch
  split
  · exact hi
  case isFalse hf =>
    have hlt : (hd.queue.filter (fun f => !f.isView)).length < 16 := Nat.not_le.1 fun e => hf (decide_eq_true e)
    refine ⟨hi.history, hi.tables, ?_, ?_, fun e => absurd (hup.symm.trans e) nofun, hi.settings⟩
    · rw [List.filter_append]
      exact (congrArg List.length (List.append_nil _)).trans_le hi.views
    · rw [List.filter_append, List.length_append]
      exact hlt

theorem HeadInv.heard (hi : HeadInv hd) (now : Nat) : HeadInv (hd.heard now) := by
  unfold Head.heard
  split
  · exact hi
  · exact hi.withLine _ _ _ _

theorem Head.heard_up (hd : Head) (now : Nat) : (hd.heard now).up = hd.up := by
  unfold Head.heard
  split <;> rfl

/-- The transmitter takes the next frame of the list (R165). -/
theorem HeadInv.sendNext (hi : HeadInv hd) : HeadInv hd.sendNext where
  history := hi.history
  tables := hi.tables
  views := ((List.tail_sublist _).filter _).length_le.trans hi.views
  replies := ((List.tail_sublist _).filter _).length_le.trans hi.replies
  down e := ⟨(hi.down e).1, by rw [Head.sendNext, (hi.down e).2]; rfl⟩
  settings := hi.settings

/-! ### Every command keeps the facts of the Head Links -/

/-- The facts of every head. -/
def HeadsInv (s : State) : Prop := ∀ h : HeadNo, HeadInv s.heads[h]

theorem HeadsInv.of_heads (hs : HeadsInv s) (e : t.heads = s.heads) : HeadsInv t := fun h => by
  rw [e]; exact hs h

theorem HeadsInv.withHead {x : Head} (hs : HeadsInv s) (hx : HeadInv x) : HeadsInv (s.withHead h x) := fun r => by
  by_cases hr : r = h
  · subst hr; rwa [withHead_self]
  · rw [withHead_other _ _ hr]; exact hs r

/-- A change of one head. -/
theorem HeadsInv.updateHead {f : Head → Head} (hs : HeadsInv s) (hf : HeadInv s.heads[h] → HeadInv (f s.heads[h])) :
    HeadsInv (updateHead h f s) :=
  hs.withHead (hf (hs h))

/-- An event keeps what its work keeps. -/
theorem HeadsInv.event {req : Bool} {f : State → State} (hs : HeadsInv s) (hf : ∀ u, HeadsInv u → HeadsInv (f u)) :
    HeadsInv (event req f s) :=
  (hf (s.withCause req) (hs.of_heads rfl)).of_heads (by simp [Machine.event])

/-- A message to a head. -/
theorem HeadsInv.takeHead {α β : Type} {c : List (Msg α)} {want : α → Option β} {x : List (Msg α) → State → Mail}
    {f : β → State → State} (hs : HeadsInv s) (hf : ∀ a u, HeadsInv u → HeadsInv (f a u)) :
    HeadsInv (takeHead c want (fun r u => u.withMail (x r u)) f s) := by
  unfold Machine.takeHead
  split
  · split
    · exact HeadsInv.event (hs.of_heads rfl) (hf _)
    · exact hs
  · exact hs

/-- A publish (R168): the record is built with the settings that the facts bound. -/
theorem HeadsInv.takePublish (hs : HeadsInv s) (x : Publish) : HeadsInv (takePublish x h s) := by
  unfold Machine.takePublish
  dsimp only
  split
  case isTrue hup => exact hs.withHead ((hs h).viewed hup.1 (viewRows_length (hs h).settings.2.2 _ _))
  · exact hs

/-- A link that comes UP holds nothing, as it held nothing in DOWN (R164). -/
theorem HeadsInv.takeReady (hs : HeadsInv s) : HeadsInv (takeReady h s) := by
  unfold Machine.takeReady
  dsimp only
  split
  · exact hs.withHead ((hs h).withLine _ _ _ _)
  case isFalse hd =>
    have hq : s.heads[h].queue = [] := ((hs h).down (Bool.eq_false_iff.2 hd)).2
    have hx := ((hs h).emptied true).withLine s.now s.heads[h].sending s.heads[h].cueFlag s.heads[h].rx
    rw [← hq] at hx
    exact HeadsInv.of_heads (s := s.withHead h _) (hs.withHead hx) rfl

theorem HeadsInv.takeHeadFrame (hs : HeadsInv s) (kind : Byte) (body : List Byte) :
    HeadsInv (takeHeadFrame h kind body s) := by
  unfold Machine.takeHeadFrame
  split
  · exact hs.takeReady
  · split
    case isTrue hup =>
      exact hs.updateHead fun hi => (hi.heard _).takeFetch ((Head.heard_up _ _).trans hup.2.2) _ _ _
    · exact hs

theorem HeadsInv.headChars (hs : HeadsInv s) (cs : List LineChar) : HeadsInv (headChars h cs s) := by
  have hr {u : State} (hu : HeadsInv u) (x : LinkRx) : HeadsInv (Machine.updateHead h (fun hd => { hd with rx := x }) u) :=
    hu.updateHead fun hi => hi.withLine _ _ _ _
  have hg : HeadsInv (headGap h s) := by
    unfold headGap
    split
    · exact hr hs _
    · exact hs
  refine List.foldlRecOn _ _ hg fun u hu c _ => ?_
  unfold headChar
  dsimp only
  split
  · exact (hr hu _).takeHeadFrame _ _
  all_goals exact hr hu _

/-- Only settings in range are taken (R167). -/
theorem setHead_headsInv (b : List Byte) (hs : HeadsInv s) : HeadsInv (setHead b s).state := by
  unfold setHead withFour
  split
  · dsimp only
    split
    · split
      case isTrue hv => exact hs.updateHead fun hi => hi.withSettings hv
      · exact hs
    · exact hs
  · exact hs

/-- Resets (R177). -/
theorem takeReset_headsInv (x : Scope) (hs : HeadsInv s) : HeadsInv (takeReset x s) := by
  have hl : (takeReset x s).heads = (resetBlocks x (finishCueWork s)).heads :=
    (SameBlocks.ite (blocks_withLink _) ((blocks_withLink _).trans blocks_transmitNext)).heads (ps := []) (by simp)
  refine HeadsInv.of_heads (s := resetBlocks x (finishCueWork s)) (fun h => ?_) hl
  have hf : HeadInv (finishCueWork s).heads[h] := hs.of_heads (blocks_finishCueWork.heads (by decide)) h
  rw [resetBlocks_eq]
  dsimp only
  split
  · rw [Fin.getElem_fin, Vector.getElem_ofFn]
    exact hf.scopeReset _
  · exact hf

/-- Every command keeps the facts of the Head Links. -/
theorem exec_headsInv (c : Instr) (hs : HeadsInv s) : Ends (exec c s) HeadsInv := by
  by_cases hc : .heads ∉ touches c
  · have hb := exec_blocks c (s := s)
    cases ho : exec c s with
    | next t => exact hs.of_heads ((hb.next ho).heads hc)
    | fault | refused => rw [ho] at hb; exact hb
  cases c with
  | powerOnReset a b => exact fun h => powerOn_head (rateOf a b) h ▸ reset_headInv h
  | resetTakesEffect =>
    show HeadsInv _
    split
    · split
      · exact hs.event fun _ => takeReset_headsInv _
      · exact hs
    · exact hs
  | viewBuild h => exact hs.takeHead fun x _ hu => hu.takePublish x
  | headReady h cs => exact hs.event fun _ hu => hu.headChars cs
  | fetch h cs => exact hs.event fun _ hu => hu.headChars cs
  | headFrameDiscard h cs => exact hs.event fun _ hu => hu.headChars cs
  | headSilenceTimeout h =>
    refine hs.event fun u hu => ?_
    split
    · exact (hu.updateHead fun hi => hi.emptied false).of_heads (raise_heads _ _)
    · exact hu
  | headTransmit h => exact hs.event fun _ hu => hu.updateHead HeadInv.sendNext
  | cueFlag h => exact hs.takeHead fun _ _ hu => hu.updateHead fun hi => hi.withLine _ _ _ _
  | cueFlagEnd h => exact hs.takeHead fun _ _ hu => hu.updateHead fun hi => hi.withLine _ _ _ _
  | setHead =>
    obtain hb | ⟨r, hb⟩ := runRequestIf_blocks (ps := []) (fun r => r.kind.toNat = 0x60) setHead s
    · exact hs.of_heads (hb.heads (by simp))
    · exact (setHead_headsInv r.body (hs.of_heads (t := s.withCause true) rfl)).of_heads (hb.heads (by simp))
  | _ => simp [touches] at hc

theorem headsKept_claim : Claims.HeadsKept :=
  kept_of_exec (P := HeadsInv) (fun c _ => exec_headsInv c) (fun _ _ h => h.of_heads rfl) fun _ h => h.of_heads rfl

end head
end Sys2Proof.Machine

namespace Sys2Proof.Machine

/-! ### What the work of an event makes of the Link Controller (R182 to R184)

The premise-free counterpart of the Link Controller's frame: whatever the transmitter does meanwhile, the work of a block
lists notices by raising them, and neither takes requests nor places replies. -/

/-- The form of the notice list: at most one pending of a kind, none of a kind masked off (R184). -/
structure LinkController.Formed (l : LinkController) : Prop where
  distinct : l.notices.Nodup
  enabled : ∀ n ∈ l.notices, n.enabledBy l.mask = true

/-- The second state has the requests of the first, no more replies waiting, and a notice list that keeps its form. -/
structure Lists (s t : State) : Prop where
  requests : t.link.requests = s.link.requests
  replies : t.link.replies.length ≤ s.link.replies.length
  formed : s.link.Formed → t.link.Formed

/-- Neither the queues of the Link Controller nor its notice list are among the parts. -/
def unlisted (ps : List Part) : Bool := !ps.contains .link && !ps.contains .notices

theorem not_mem_of_unlisted {ps : List Part} (h : unlisted ps = true) : .link ∉ ps ∧ .notices ∉ ps := by
  simpa [unlisted] using h

section lists
variable {ps qs : List Part} {s t u : State} {l : LinkController}

theorem Lists.of_link (h : t.link = s.link) : Lists s t := by
  constructor
  all_goals rw [h]
  exact id

theorem Lists.rfl : Lists s s := .of_link (Eq.refl _)

theorem Lists.trans (h : Lists s t) (k : Lists t u) : Lists s u :=
  ⟨k.requests.trans h.requests, k.replies.trans h.replies, k.formed ∘ h.formed⟩

/-- An operation that leaves the queues and the notice list alone. -/
theorem Same.lists (h : Same ps s t) (hq : unlisted ps = true) : Lists s t := by
  obtain ⟨hl, hn⟩ := not_mem_of_unlisted hq
  have hrest := LinkController.mk.inj (h.link hl)
  obtain ⟨hrequests, hreplies, -, hmask, -⟩ := hrest
  refine ⟨hrequests, (congrArg List.length hreplies).le, fun hf => ⟨?_, ?_⟩⟩
  · rw [h.notices hn]; exact hf.distinct
  · rw [h.notices hn, hmask]; exact hf.enabled

theorem Lists.ite {c : Prop} [Decidable c] (ht : Lists s t) (hu : Lists s u) : Lists s (if c then t else u) := by
  split
  · exact ht
  · exact hu

theorem Lists.foldl {β : Type} {g : State → β → State} (h : ∀ u b, Lists u (g u b)) :
    ∀ (bs : List β) (s : State), Lists s (bs.foldl g s)
  | [], _ => .rfl
  | b :: bs, s => (h s b).trans (Lists.foldl h bs _)

theorem lists_raise (n : Notice) : Lists s (raise n s) :=
  ⟨s.link.raise_requests n, (congrArg List.length (s.link.raise_replies n)).le,
    fun hf => ⟨LinkController.raise_distinct n hf.distinct, LinkController.raise_enabled n hf.enabled⟩⟩

/-- A notice whose transmission begins leaves the list. -/
theorem lists_sendNotice {n : Notice} {rest : List Notice} (h : s.link.notices = n :: rest) :
    Lists s (sendNotice n rest s) := by
  constructor
  all_goals rw [sendNotice_link]
  exact fun hf => ⟨(h ▸ hf.distinct).of_cons, fun a ha => hf.enabled a (h ▸ List.mem_cons_of_mem _ ha)⟩

theorem lists_sendReply {r : Reply} {rest : List Reply} (h : s.link.replies = r :: rest) : Lists s (sendReply r rest s) :=
  ⟨Eq.refl _, h ▸ Nat.le_succ _, fun hf => ⟨hf.distinct, hf.enabled⟩⟩

theorem lists_sendIfIdle : Lists s (sendIfIdle s) := by
  obtain e | ⟨n, rest, -, hn, e⟩ | ⟨r, rest, -, -, hr, e⟩ := sendIfIdle_cases s
  all_goals rw [e]
  · exact .rfl
  · exact lists_sendNotice hn
  · exact lists_sendReply hr

theorem lists_transmitNext : Lists s (transmitNext s) := by
  unfold transmitNext
  split
  case h_1 hr => exact lists_sendReply hr
  case h_2 hn => exact lists_sendNotice hn
  · exact ⟨Eq.refl _, Nat.le_refl _, fun hf => ⟨hf.distinct, hf.enabled⟩⟩

/-! The Text Store and the Script Table (R11, R20 to R22, R55, R58) -/

theorem lists_storeLowTest : Lists s (storeLowTest s) := .ite (((same_withStore _).lists rfl).trans (lists_raise _)) .rfl

theorem lists_takeBlock {r : LineRecord} {n : Nat} (h : takeBlock r s = some (n, u)) : Lists s u := by
  unfold takeBlock at h
  split at h
  · cases h
  · cases h
    exact ((same_withStore _).lists rfl).trans lists_storeLowTest

/-- A record or a flag of the script and the notice of it. -/
theorem lists_noteScript (x : ScriptTable) (n : Notice) : Lists s (raise n (s.withScript x)) :=
  ((same_withScript _).lists rfl).trans (lists_raise _)

theorem lists_designation (k : Slot) : Lists s (designation k s) := .ite (lists_noteScript _ _) .rfl

theorem lists_offerFault (r : FaultRecord) : Lists s (offerFault r s) := by
  unfold offerFault
  split
  · exact .rfl
  · exact lists_noteScript _ _

theorem lists_noteEdit (e : EditKind) (k : Slot) (i : Nat) (d : Int) : Lists s (noteEdit e k i d s) :=
  .trans (t := noteChange k s) (.ite (lists_noteScript _ _) .rfl) (.ite (lists_noteScript _ _) .rfl)

/-! The Cue Monitor (R144, R151) -/

theorem lists_expireTimer (n : TimerNo) : Lists s (expireTimer n s) :=
  ((((same_withCues _).lists rfl).trans (lists_raise _)).trans ((same_expiryAction _).lists rfl)).trans
    ((same_withCues _).lists rfl)

theorem lists_finishCueWork : Lists s (finishCueWork s) :=
  ((same_endFlash.lists rfl).trans (same_endCueFlag.lists rfl)).trans
    (Lists.foldl (fun _ n => .ite ((lists_expireTimer n).trans lists_sendIfIdle) .rfl) _ _)

theorem lists_cueReady : Lists s (cueReady s) := lists_finishCueWork.trans (same_drainCueMail.lists rfl)

theorem lists_fire (e : CueEntry) : Lists s (fire e s) :=
  (((same_withCues _).lists rfl).trans (lists_raise _)).trans ((same_markerAction _ _).lists rfl)

theorem lists_passLines (mode : CheckMode) : ∀ (bs : List Nat) (s : State), Lists s (passLines mode bs s).1
  | [], _ => .rfl
  | b :: bs, s => by
    have hd : Lists s (dropEntry b s) := (same_setQueue _).lists rfl
    unfold passLines
    split
    · exact lists_passLines mode bs s
    · dsimp only
      split
      · exact hd.trans (lists_passLines mode bs _)
      · split
        · exact hd.trans (lists_fire _)
        · exact (hd.trans (lists_fire _)).trans (lists_passLines mode bs _)

theorem lists_passageCheck (a b : Pos) (fwd : Bool) (mode : CheckMode) : Lists s (passageCheck a b fwd mode s).1 := by
  unfold passageCheck
  dsimp only
  split
  · exact lists_cueReady
  · split
    · exact lists_cueReady.trans (lists_passLines _ _ _)
    · exact lists_cueReady.trans ((same_setQueue _).lists rfl)

/-! The Scroll Engine (R69) -/

theorem lists_enterHalted (c : HaltCause) : Lists s (enterHalted c s) :=
  .ite .rfl (((same_withEngine _).lists rfl).trans (lists_raise _))

theorem lists_endGoalIf (gone : Nat → Bool) : Lists s (endGoalIf gone s) := by
  unfold endGoalIf
  split
  · exact .ite (lists_enterHalted _) .rfl
  · exact .rfl

theorem lists_takeDelete (k : Slot) (i : Nat) (run : List Nat) : Lists s (takeDelete k i run s) :=
  (((same_previewAfterDelete k i run).lists rfl).trans ((same_liveAfterDelete k i run).lists rfl)).trans (lists_endGoalIf _)

theorem lists_takeIneligible (k : Slot) (i : Nat) : Lists s (takeIneligible k i s) := by
  unfold takeIneligible
  dsimp only
  refine .trans ?_ (lists_endGoalIf _)
  exact .ite ((lists_enterHalted _).trans ((same_jump _).lists rfl)) .rfl

theorem lists_takeReport (r : ScriptReport) : Lists s (takeReport r s) := by
  cases r with
  | insert | orderChanged => exact .rfl
  | eligible => exact same_takeEligible.lists rfl
  | delete => exact lists_takeDelete _ _ _
  | ineligible => exact lists_takeIneligible _ _

theorem lists_takeReports : Lists s (takeReports s) :=
  ((same_withMail _).lists rfl).trans (Lists.foldl (fun _ _ =>
    (((same_withCause _).lists rfl).trans (lists_takeReport _)).trans ((same_withCause _).lists rfl)) _ _)

theorem lists_engineReady : Lists s (engineReady s) := .ite .rfl (lists_takeReports.trans lists_sendIfIdle)

theorem lists_liveSlotCheck (k : Slot) : Lists s (liveSlotCheck k s) :=
  lists_takeReports.trans (.ite (lists_designation _) .rfl)

theorem lists_arrive (x : Travel) : Lists s (arrive x s) := by
  unfold arrive
  split
  · exact ((same_withEngine _).lists rfl).trans (lists_enterHalted _)
  · exact (same_withEngine _).lists rfl

theorem lists_advance : Lists s (advance s) := by
  obtain e | ⟨-, e⟩ | ⟨-, e⟩ | ⟨p, r, v, goal, x, f, -, e⟩ := advance_cases s
  all_goals rw [e]
  · exact .rfl
  · exact (same_withEngine _).lists rfl
  · exact lists_enterHalted _
  · rw [advanceBy_eq]
    exact (((same_withEngine _).lists rfl).trans (((same_withEngine _).lists rfl).trans (lists_passageCheck _ _ _ _))).trans
      (lists_arrive _)

theorem lists_frameAdvance (frame : Half) : Lists s (frameAdvance frame s) :=
  (((same_reportAir.lists rfl).trans lists_advance).trans (same_designate.lists rfl)).trans ((same_sendPublish _).lists rfl)

theorem lists_jogHalt : Lists s (jogHalt s) := .ite .rfl (lists_enterHalted _)

theorem lists_jog (d : Int) : Lists s (jog d s) := by
  cases hp : s.engine.live with
  | none => simp only [jog, hp]; exact .rfl
  | some p =>
    cases hr : s.script.reach p.block with
    | none => simp only [jog, hp, hr]; exact lists_jogHalt
    | some r =>
      by_cases hd : d = 0
      · simp only [jog, hp, hr, if_pos hd]
        exact lists_jogHalt
      · rw [jog_eq hp hr hd]
        exact (((lists_cueReady.trans lists_jogHalt).trans (lists_passageCheck _ _ _ _)).trans (lists_arrive _)).trans
          (same_designate.lists rfl)

theorem lists_startStop : Lists s (startStop s) := by
  unfold startStop beginStep
  split
  · exact .rfl
  · split
    · refine .ite ?_ ((same_withEngine _).lists rfl)
      split
      · exact (same_withEngine _).lists rfl
      · exact .rfl
    · exact (same_withEngine _).lists rfl
    · exact (same_withEngine _).lists rfl
    all_goals exact lists_enterHalted _

theorem lists_goTo (b f : Nat) (p : Pos) : Lists s (goTo b f p s) :=
  .ite (.trans (.ite ((same_withEngine _).lists rfl) (lists_enterHalted _)) ((same_jump _).lists rfl))
    ((same_withEngine _).lists rfl)

/-! The Drive Arbiter and the ports (R101, R134) -/

theorem lists_arbiterEvent (f : Arbiter → Arbiter) : Lists s (arbiterEvent f s) := by
  have hl : (arbiterEvent f s).link = if driveChanged s.arbiter (f s.arbiter).settle then s.link.raise .driveChanged
      else s.link := by rw [arbiterEvent, putArbiter_eq]; rfl
  cases hd : driveChanged s.arbiter (f s.arbiter).settle with
  | true => exact (lists_raise .driveChanged).trans (.of_link (hl.trans (if_pos hd)))
  | false => exact .of_link (hl.trans (if_neg (Bool.eq_false_iff.1 hd)))

theorem lists_setChange (f : ChangeFlag) (p : PortNo) : Lists s (setChange f p s) :=
  .ite .rfl (((same_withPort _ _).lists rfl).trans (lists_raise _))

theorem lists_leaveEnabled (was : PortState) (p : PortNo) : Lists s (leaveEnabled was p s) :=
  .ite ((lists_setChange _ _).trans ((same_sendArbiter _ _).lists rfl)) .rfl

theorem lists_enterFaulted (c : FaultCause) (p : PortNo) : Lists s (enterFaulted c p s) :=
  (((same_updatePort _ _).lists rfl).trans (lists_setChange _ _)).trans (lists_leaveEnabled _ _)

theorem lists_portReady (p : PortNo) : Lists s (portReady p s) :=
  ((same_sendIdle p).lists rfl).trans (.ite ((lists_enterFaulted _ _).trans lists_sendIfIdle) .rfl)

/-! The Frame Clock and the Head Links (R159, R164) -/

theorem lists_takePulse : Lists s (takePulse s) := by
  have hh : Lists s (huntingPulse s) := by
    unfold huntingPulse
    dsimp only
    split
    · exact (same_withClock _).lists rfl
    · exact .ite (.ite ((((same_withClock _).lists rfl).trans (lists_raise _)).trans (same_lockedPulse.lists rfl))
        (((same_withClock _).lists rfl).trans (same_lockedPulse.lists rfl))) ((same_withClock _).lists rfl)
  unfold takePulse
  split
  · exact .rfl
  · exact ((same_withClock _).lists rfl).trans (same_lockedPulse.lists rfl)
  · exact hh
  · exact hh
  · exact .rfl

theorem lists_takeHeadFrame (h : HeadNo) (kind : Byte) (body : List Byte) : Lists s (takeHeadFrame h kind body s) :=
  .ite (.ite ((same_withHead _ _).lists rfl) (((same_withHead _ _).lists rfl).trans (lists_raise _)))
    (.ite ((same_updateHead _ _).lists rfl) .rfl)

theorem lists_headChars (h : HeadNo) (cs : List LineChar) : Lists s (headChars h cs s) := by
  refine .trans (t := headGap h s) (.ite ((same_updateHead _ _).lists rfl) .rfl) (Lists.foldl (fun u c => ?_) _ _)
  unfold headChar
  dsimp only
  split
  · exact ((same_updateHead _ _).lists rfl).trans (lists_takeHeadFrame _ _ _)
  all_goals exact (same_updateHead _ _).lists rfl

/-! The owners of the requests that raise a notice -/

variable (b : List Byte)

theorem lists_withSlot {n : Nat} {f : Slot → Answer} (h : ∀ k, Lists s (f k).state) : Lists s (withSlot n s f).state := by
  unfold withSlot
  split
  · exact h _
  · exact .rfl

theorem lists_withFour {n : Nat} {f : Fin 4 → Answer} (h : ∀ p, Lists s (f p).state) :
    Lists s (withFour n s f).state := by
  unfold withFour
  split
  · exact h _
  · exact .rfl

theorem lists_done {r : List Byte} (h : Lists s t) : Lists s (done r t).state := h

theorem lists_iteAnswer {c : Prop} [Decidable c] {x y : Answer} (hx : Lists s x.state) (hy : Lists s y.state) :
    Lists s (if c then x else y).state := by
  split
  · exact hx
  · exact hy

theorem lists_appendLine : Lists s (appendLine b s).state := by
  unfold appendLine
  split
  · exact .rfl
  · split
    · exact .rfl
    · refine lists_iteAnswer .rfl ?_
      split
      · exact .rfl
      · next hu => exact (lists_takeBlock hu).trans ((same_withScript _).lists rfl)

theorem lists_setStory : Lists s (setStory b s).state := by
  refine lists_withSlot fun k => ?_
  dsimp only
  split
  · exact .rfl
  · refine lists_iteAnswer .rfl ?_
    split
    · exact .rfl
    · exact .rfl
    · exact ((same_changeScript _ _ _).lists rfl).trans (lists_liveSlotCheck _)

theorem lists_editChecks {e : EditKind} {k : Slot} {i : Nat} {f : State → Answer} (h : Lists s (f s).state) :
    Lists s (editChecks e k i s f).state := by
  unfold editChecks
  dsimp only
  split
  · exact .rfl
  · exact .rfl
  · exact lists_iteAnswer h (lists_offerFault _)

theorem lists_insertLine : Lists s (insertLine b s).state := by
  refine lists_withSlot fun k => ?_
  dsimp only
  split
  · exact .rfl
  · refine lists_iteAnswer .rfl (lists_editChecks ?_)
    unfold completeInsert
    split
    · exact .rfl
    · next hu => exact ((lists_takeBlock hu).trans (lists_noteEdit _ _ _ _)).trans ((same_changeScript _ _ _).lists rfl)

theorem lists_replaceLine : Lists s (replaceLine b s).state := by
  refine lists_withSlot fun k => ?_
  dsimp only
  split
  · exact .rfl
  · exact lists_iteAnswer .rfl (lists_editChecks
      ((((same_rewriteBlock _ _).lists rfl).trans (lists_noteEdit _ _ _ _)).trans ((same_sendRewritten _ _).lists rfl)))

theorem lists_deleteLines : Lists s (deleteLines b s).state :=
  lists_withSlot fun _ => lists_iteAnswer .rfl (lists_editChecks
    ((((same_returnRun _).lists rfl).trans (lists_noteEdit _ _ _ _)).trans ((same_changeScript _ _ _).lists rfl)))

theorem lists_goToRequest : Lists s (goToRequest b s).state := by
  refine lists_withSlot fun k => lists_iteAnswer .rfl (lists_iteAnswer .rfl ?_)
  split
  · split
    · exact lists_iteAnswer .rfl (lists_goTo _ _ _)
    · exact .rfl
  · exact .rfl

theorem lists_setDriveMode : Lists s (setDriveMode b s).state := by
  unfold setDriveMode
  split
  · exact .ite .rfl (lists_arbiterEvent _)
  · exact .rfl

theorem lists_setPortClass : Lists s (setPortClass b s).state := by
  refine lists_withFour fun p => ?_
  split
  · exact .ite .rfl (lists_arbiterEvent _)
  · exact .rfl

theorem lists_pinDrive : Lists s (pinDrive b s).state := by
  have hp (x : Option PortNo) : Lists s (pinTo x s) := .ite .rfl (lists_arbiterEvent _)
  exact lists_iteAnswer (hp _) (lists_withFour fun _ => hp _)

theorem lists_releaseDrive : Lists s (releaseDrive b s).state :=
  lists_iteAnswer (lists_done (lists_arbiterEvent _)) .rfl

theorem lists_resetPort : Lists s (resetPort b s).state := by
  have hd (p : PortNo) (f : Port → Port) : Lists s (updatePort p f s) := (same_updatePort _ _).lists rfl
  exact lists_withFour fun p => .trans (.ite (hd p _) ((hd p _).trans (lists_setChange _ _))) (lists_leaveEnabled _ _)

/-- Kinds turned off leave the list with the mask (R184). -/
theorem lists_setNotices : Lists s (setNotices b s).state := by
  have hm (x : Half) : Lists s (s.withLink (s.link.setMask x)) :=
    ⟨Eq.refl _, Nat.le_refl _, fun hf => ⟨hf.distinct.filter _, fun n hn => (List.mem_filter.1 hn).2⟩⟩
  exact lists_iteAnswer .rfl (lists_done
    ((((hm _).trans ((same_withStore _).lists rfl)).trans (same_rearmTest.lists rfl)).trans lists_storeLowTest))

theorem lists_resetRequest : Lists s (resetRequest b s).state := by
  unfold resetRequest
  split
  · exact ⟨Eq.refl _, Nat.le_refl _, fun hf => ⟨hf.distinct, hf.enabled⟩⟩
  · exact .rfl

end lists
end Sys2Proof.Machine

namespace Sys2Proof.Machine

/-! ### Every command keeps the facts of the Link Controller (R181, R182, R184) -/

/-- The facts of the Link Controller but for its transmitter's: the depths of its queues and the form of its list. -/
structure LinkController.Within (l : LinkController) : Prop where
  requests : l.requests.length ≤ Config.requestDepth
  busy : l.busyHeld ≤ Config.busyDepth
  replies : l.replies.length ≤ Config.replyDepth
  formed : l.Formed

section link
variable {s t : State} {l : LinkController}

theorem LinkInv.within (h : LinkInv l) : l.Within := ⟨h.requests, h.busy, h.replies, h.distinct, h.enabled⟩

theorem LinkController.Within.inv (h : l.Within) (hw : l.sending = none → l.replies = [] ∧ l.notices = []) : LinkInv l :=
  ⟨h.requests, h.busy, h.replies, h.formed.distinct, h.formed.enabled, hw⟩

theorem Lists.within (h : Lists s t) (hs : s.link.Within) : t.link.Within where
  requests := h.requests ▸ hs.requests
  busy := by
    rw [LinkController.busyHeld, h.requests]
    exact hs.busy
  replies := h.replies.trans hs.replies
  formed := h.formed hs.formed

/-! What brings an event about -/

/-- The transmitter's turn at the end of an event makes the depths and the form of the list the whole of the facts. -/
theorem LinkController.Within.event {req : Bool} {f : State → State} (h : (f (s.withCause req)).link.Within) :
    LinkInv (event req f s).link :=
  (lists_sendIfIdle.within (s := (f (s.withCause req)).withCause false) h).inv (sendIfIdle_idle _)

theorem LinkInv.event {req : Bool} {f : State → State} (hi : LinkInv s.link) (hf : ∀ u, Lists u (f u)) :
    LinkInv (event req f s).link :=
  LinkController.Within.event ((hf (s.withCause req)).within hi.within)

theorem LinkInv.takeHead {α β : Type} {c : List (Msg α)} {want : α → Option β} {x : List (Msg α) → State → Mail}
    {f : β → State → State} (hi : LinkInv s.link) (hf : ∀ i a, want i = some a → ∀ u, Lists u (f a u)) :
    LinkInv (takeHead c want (fun r u => u.withMail (x r u)) f s).link := by
  unfold Machine.takeHead
  split
  · split
    · next ha => exact LinkInv.event (s := s.withMail _) hi (hf _ _ ha)
    · exact hi
  · exact hi

theorem busyHeld_cons {r : Request} {rest : List Request} (h : l.requests = r :: rest) :
    l.busyHeld = r.busy.length + (rest.map (fun q => q.busy.length)).sum := by
  rw [LinkController.busyHeld, h, List.map_cons, List.sum_cons]

/-- A reply and the Busy replies of its request, placed while the reply queue has room for them (R182). -/
theorem LinkController.Within.placeReply {r : Request} {rest : List Request} {u : State} (hl : Lists s u)
    (hs : s.link.Within) (hr : s.link.requests = r :: rest)
    (hroom : s.link.replies.length + 1 + r.busy.length ≤ 4) (x : Reply) : (placeReply x r.busy u).link.Within := by
  have hu := hl.within hs
  have hq : u.link.requests = r :: rest := hl.requests.trans hr
  have htail : u.link.requests.tail = rest := congrArg List.tail hq
  refine ⟨(List.length_tail ▸ Nat.sub_le _ _).trans hu.requests, ?_, ?_, hu.formed.distinct, hu.formed.enabled⟩
  · have hb := hu.busy
    rw [busyHeld_cons hq] at hb
    show (u.link.requests.tail.map (fun q => q.busy.length)).sum ≤ _
    rw [htail]
    omega
  · have hle := hl.replies
    show (u.link.replies ++ x :: r.busy).length ≤ 4
    rw [List.length_append, List.length_cons]
    omega

/-- A request is taken only while the reply queue has room for what it places (R182). -/
theorem LinkInv.request {meant : Request → Bool} {owner : List Byte → State → Answer} (hi : LinkInv s.link)
    (ho : ∀ b {u}, Lists u (owner b u).state) : LinkInv (runRequestIf meant owner s).link := by
  unfold runRequestIf
  split
  · exact hi
  · next r rest hr =>
    split
    case isTrue hm =>
      have hroom := canTake_room (Bool.and_eq_true_iff.1 hm).2 hr
      refine LinkController.Within.event (.placeReply (s := s.withCause true) ?_ hi.within hr hroom _)
      split
      · exact ho _
      · exact .rfl
    · exact hi

/-- A request of a block that leaves the Link Controller alone. -/
theorem LinkInv.quietRequest {qs : List Part} {meant : Request → Bool} {owner : List Byte → State → Answer}
    (hi : LinkInv s.link) (ho : ∀ {u} b, Same qs u (owner b u).state) (hq : unlisted qs = true) :
    LinkInv (runRequestIf meant owner s).link :=
  hi.request fun b => (ho b).lists hq

/-! Receiving (R179 to R181) -/

/-- The parts of the Link Controller that its facts do not go by. -/
theorem LinkController.Within.withRx (h : l.Within) (x : LinkRx) (e : Option (LinkErrorCause × Half)) :
    LinkController.Within { l with rx := x, lastError := e } :=
  ⟨h.requests, h.busy, h.replies, h.formed.distinct, h.formed.enabled⟩

theorem attachBusy_length (x : Reply) : ∀ q : List Request, (attachBusy x q).length = q.length
  | [] => rfl
  | [_] => rfl
  | _ :: r :: rest => congrArg (· + 1) (attachBusy_length x (r :: rest))

theorem attachBusy_held (x : Reply) : ∀ q : List Request,
    ((attachBusy x q).map (fun r => r.busy.length)).sum ≤ (q.map (fun r => r.busy.length)).sum + 1
  | [] => Nat.zero_le _
  | [r] => by simp [attachBusy]
  | q :: r :: rest => by
    have ih := attachBusy_held x (r :: rest)
    rw [attachBusy, List.map_cons, List.sum_cons, List.map_cons, List.sum_cons]
    · omega
    · nofun

theorem LinkController.Within.linkFault (h : s.link.Within) (c : LinkErrorCause) : (linkFault c s).link.Within :=
  ((lists_raise .linkFault).trans lists_sendIfIdle).within (s := s.withLink _) (h.withRx s.link.rx _)

/-- A frame joins the queue while it is not full, and a Busy reply while fewer than three are held (R181). -/
theorem LinkController.Within.offerFrame (h : s.link.Within) (kind : Byte) (body : List Byte) :
    (offerFrame kind body s).link.Within := by
  unfold Machine.offerFrame
  dsimp only
  split
  case isTrue hlt =>
    refine ⟨by simpa using hlt, ?_, h.replies, h.formed.distinct, h.formed.enabled⟩
    simpa [LinkController.busyHeld] using h.busy
  · split
    case isTrue hlt =>
      refine ⟨(attachBusy_length _ _).trans_le h.requests, ?_, h.replies, h.formed.distinct, h.formed.enabled⟩
      exact (attachBusy_held _ _).trans hlt
    · exact h.linkFault _

theorem LinkController.Within.hostGap (h : s.link.Within) : (hostGap s).link.Within := by
  unfold Machine.hostGap
  split
  · exact LinkController.Within.linkFault (s := s.withLink _) (h.withRx _ s.link.lastError) _
  · exact h

theorem LinkController.Within.hostChars (h : s.link.Within) (cs : List LineChar) : (hostChars cs s).link.Within := by
  refine List.foldlRecOn (motive := fun u : State => u.link.Within) _ _ h.hostGap fun u hu c _ => ?_
  have hr (x : LinkRx) : (u.withLink { u.link with rx := x }).link.Within := hu.withRx x u.link.lastError
  unfold hostChar
  dsimp only
  split
  · exact (hr _).offerFrame _ _
  · exact (hr _).linkFault _
  · exact hr _

/-! Resets (R186) -/

theorem lists_resetBlocks (x : Scope) : Lists s (resetBlocks x s) := by
  have hl : (resetBlocks x s).link = linkAfterReset x s := by rw [resetBlocks_eq]
  refine .trans (t := s.withLink (linkAfterReset x s)) ?_ (.of_link hl)
  unfold linkAfterReset
  dsimp only
  have halted : Lists s (s.withLink (if (x.hitsScript || x.hitsMotion) = true ∧ s.engine.motion ≠ .halted then
      s.link.raise .scrollHalted else s.link)) := by
    split
    · exact lists_raise _
    · exact .rfl
  split
  · exact halted.trans (lists_raise (s := s.withLink _) _)
  · exact halted

theorem LinkController.Within.takeReset (x : Scope) (h : s.link.Within) : (takeReset x s).link.Within := by
  have hb := (lists_finishCueWork.trans (lists_resetBlocks x)).within h
  show (resetLink x (resetBlocks x (finishCueWork s))).link.Within
  unfold resetLink
  split
  · exact (reset_linkInv _).within.withRx _ none
  · refine lists_transmitNext.within (s := State.withLink _ _) ?_
    exact ⟨hb.requests, hb.busy, hb.replies, hb.formed.distinct, hb.formed.enabled⟩

/-! The commands -/

theorem LinkInv.report (hi : LinkInv s.link) (want : ScriptReport → Bool) : LinkInv (takeReportIf want s).link :=
  hi.takeHead fun _ r _ _ => (lists_takeReport r).trans lists_takeReports

theorem LinkInv.cueReport {α : Type} (hi : LinkInv s.link) (want : CueMsg → Option α) :
    LinkInv (takeCueReportIf want s).link :=
  hi.takeHead fun _ _ _ _ => lists_finishCueWork.trans (same_rebuild.lists rfl)

theorem LinkInv.input {want : HolderInput → Option (State → State)} (hi : LinkInv s.link)
    (h : ∀ i f, want i = some f → ∀ u, Lists u (f u)) : LinkInv (takeInputIf want s).link :=
  hi.takeHead fun i f hf _ => lists_engineReady.trans (h i f hf _)

theorem LinkInv.portMsg {β : Type} {p : PortNo} {want : PortMsg → Option β} {f : β → State → State}
    (hi : LinkInv s.link) (hf : ∀ x u, Lists u (f x u)) : LinkInv (takePortMsg p want f s).link :=
  hi.takeHead fun _ x _ => hf x

theorem LinkInv.portEvent {p : PortNo} {f : State → State} (hi : LinkInv s.link) (h : ∀ u, Lists u (f u)) :
    LinkInv (portEvent p f s).link :=
  hi.event fun _ => (lists_portReady p).trans (h _)

/-- A request of a kind that the part does not know (R182). -/
theorem LinkInv.unknownRequest (hi : LinkInv s.link) : Ends (execUnknownRequest s) (fun t => LinkInv t.link) := by
  show LinkInv (State.link _)
  split
  · exact hi
  · next r rest hr =>
    split
    case isTrue hm =>
      have hroom := canTake_room (Bool.and_eq_true_iff.1 hm).2 hr
      exact LinkController.Within.event (.placeReply (s := s.withCause true) .rfl hi.within hr hroom _)
    · exact hi

/-- Every command keeps the facts of the Link Controller. -/
theorem exec_linkInv (c : Instr) (hi : LinkInv s.link) : Ends (exec c s) (fun t => LinkInv t.link) := by
  cases c with
  | powerOnReset a b => exact reset_linkInv _
  | resetTakesEffect =>
    show LinkInv (State.link _)
    split
    · split
      · exact LinkController.Within.event (.takeReset (s := s.withCause true) _ hi.within)
      · exact hi
    · exact hi
  | checkedFrame cs | receiveFault cs => exact LinkController.Within.event (.hostChars (s := s.withCause false) hi.within cs)
  | frameTimeout => exact LinkController.Within.event (.hostGap (s := s.withCause false) hi.within)
  | unknownRequest => exact hi.unknownRequest
  | transmitNext =>
    show LinkInv (State.link (ite _ _ _))
    split
    · exact hi
    · exact hi.event fun _ => lists_transmitNext
  | queryStore | queryOrder | queryFault | queryMotion | queryDrive | queryCues | queryTimers | queryFrame | identify =>
    exact hi.request fun _ _ => .rfl
  | openStory => exact hi.quietRequest same_openStory rfl
  | appendLine => exact hi.request fun b _ => lists_appendLine b
  | closeStoryCommit => exact hi.quietRequest same_closeCommit rfl
  | closeStoryAbandon => exact hi.quietRequest same_closeAbandon rfl
  | freeStory => exact hi.quietRequest same_freeStory rfl
  | setStory => exact hi.request fun b _ => lists_setStory b
  | queryStory => exact hi.quietRequest same_queryStory rfl
  | placeEntry => exact hi.quietRequest same_placeEntry rfl
  | moveEntry => exact hi.quietRequest same_moveEntry rfl
  | removeEntry => exact hi.quietRequest same_removeEntry rfl
  | floatEntry => exact hi.quietRequest same_floatEntry rfl
  | insertLine => exact hi.request fun b _ => lists_insertLine b
  | replaceLine => exact hi.request fun b _ => lists_replaceLine b
  | deleteLines => exact hi.request fun b _ => lists_deleteLines b
  | readLine => exact hi.quietRequest same_readLine rfl
  | clearFault => exact hi.quietRequest (qs := [.script]) (fun _ => same_withScript _) rfl
  | designationReport => exact hi.takeHead fun _ k _ _ => lists_designation k
  | airFrameReport => exact hi.takeHead fun _ k _ _ => (same_airFrame k).lists rfl
  | run => exact hi.quietRequest same_runScroll rfl
  | stop => exact hi.quietRequest (qs := [.engine]) (fun _ => same_withEngine _) rfl
  | halt => exact hi.request fun _ _ => lists_enterHalted _
  | step => exact hi.quietRequest same_stepScroll rfl
  | goTo => exact hi.request fun b _ => lists_goToRequest b
  | setSpeed => exact hi.quietRequest same_setSpeed rfl
  | setMotion => exact hi.quietRequest same_setMotion rfl
  | setPreview => exact hi.quietRequest same_setPreview rfl
  | frameAdvance => exact hi.takeHead fun _ f _ _ => lists_engineReady.trans (lists_frameAdvance f)
  | insertReport | deleteReport | storyIneligibleReport | storyEligibleReport | orderChangedReport => exact hi.report _
  | setTarget => exact hi.input fun | .setTarget _, _, rfl, _ => (same_withEngine _).lists rfl
  | startStopKey => exact hi.input fun | .key, _, rfl, _ => lists_startStop
  | jog => exact hi.input fun | .jog d, _, rfl, _ => lists_jog d
  | stopExpiryAction => exact hi.takeHead fun _ _ _ _ => lists_engineReady.trans ((same_withEngine _).lists rfl)
  | setDriveMode => exact hi.request fun b _ => lists_setDriveMode b
  | setPortClass => exact hi.request fun b _ => lists_setPortClass b
  | pinDrive => exact hi.request fun b _ => lists_pinDrive b
  | claimDrive => exact hi.request fun _ _ => .ite .rfl (lists_arbiterEvent _)
  | releaseDrive => exact hi.request fun b _ => lists_releaseDrive b
  | claim p | idle p | portReady p | portGone p => exact hi.portMsg fun _ _ => lists_arbiterEvent _
  | passHolderInput p => exact hi.portMsg fun x _ => .ite ((same_sendInput x).lists rfl) .rfl
  | standingReport p | lampFlash p | lampFlashEnd p =>
    exact hi.takeHead fun _ _ _ _ => (lists_portReady p).trans ((same_updatePort _ _).lists rfl)
  | enablePort => exact hi.quietRequest same_enablePort rfl
  | disablePort => exact hi.quietRequest same_disablePort rfl
  | resetPort => exact hi.request fun b _ => lists_resetPort b
  | setPort => exact hi.quietRequest same_setPort rfl
  | setLamp => exact hi.quietRequest same_setLamp rfl
  | queryPort =>
    show LinkInv (State.link (ite _ _ _))
    split
    · exact hi.event fun _ => same_finishAcks.lists rfl
    · exact hi.quietRequest same_queryPort rfl
  | presenceFound p =>
    exact hi.portEvent fun _ => .ite (((same_updatePort _ _).lists rfl).trans (lists_setChange _ _)) .rfl
  | presenceLost p =>
    exact hi.portEvent fun _ =>
      .ite ((((same_updatePort _ _).lists rfl).trans (lists_setChange _ _)).trans (lists_leaveEnabled _ _)) .rfl
  | holdOffEnd p =>
    refine hi.portEvent fun u => ?_
    split
    · exact .ite ((same_updatePort _ _).lists rfl) .rfl
    · exact .rfl
  | overcurrent p =>
    exact hi.portEvent fun _ => .ite (((same_updatePort _ _).lists rfl).trans (lists_enterFaulted _ _)) .rfl
  | poll p => exact hi.portEvent fun _ => .ite ((same_updatePort _ _).lists rfl) .rfl
  | silenceFault p => exact hi.event fun _ => lists_portReady p
  | hello p cs | dataReport p cs => exact hi.portEvent fun _ => (same_portChars p cs).lists rfl
  | releaseTimeReached p => exact hi.event fun _ => (same_sendIdle p).lists rfl
  | cueFrameStart => exact hi.takeHead fun _ _ _ _ => lists_cueReady.trans ((same_withCues _).lists rfl)
  | flashCountEnd => exact hi.event fun _ => same_endFlash.lists rfl
  | cueFlagCountEnd => exact hi.event fun _ => same_endCueFlag.lists rfl
  | timerExpiry n =>
    show LinkInv (State.link (ite _ _ _))
    split
    · exact hi.event fun _ => ((same_endFlash.lists rfl).trans (same_endCueFlag.lists rfl)).trans (lists_expireTimer n)
    · exact hi
  | positionJumped => exact hi.takeHead fun _ _ _ _ => lists_finishCueWork.trans (same_rebuild.lists rfl)
  | lineRewritten | scriptChangeReport => exact hi.cueReport _
  | skipCue => exact hi.quietRequest same_skipCue rfl
  | setTimer => exact hi.quietRequest same_setTimer rfl
  | startTimer => exact hi.quietRequest same_startTimerRequest rfl
  | stopTimer => exact hi.quietRequest same_stopTimerRequest rfl
  | freeRunFrameStart => exact hi.event fun _ => .ite (same_frameStart.lists rfl) .rfl
  | referencePulse => exact hi.event fun _ => lists_takePulse
  | flywheelFrame =>
    exact hi.event fun _ => .ite ((same_frameStart.lists rfl).trans
      (.ite (((same_withClock _).lists rfl).trans (lists_raise _)) ((same_withClock _).lists rfl))) .rfl
  | setFrame => exact hi.quietRequest same_setFrame rfl
  | setReference => exact hi.quietRequest same_setReference rfl
  | viewBuild h => exact hi.takeHead fun _ x _ _ => (same_takePublish x h).lists rfl
  | headReady h cs | fetch h cs | headFrameDiscard h cs => exact hi.event fun _ => lists_headChars h cs
  | headSilenceTimeout h =>
    exact hi.event fun _ => .ite (((same_updateHead _ _).lists rfl).trans (lists_raise _)) .rfl
  | headTransmit h => exact hi.event fun _ => (same_updateHead _ _).lists rfl
  | cueFlag h | cueFlagEnd h => exact hi.takeHead fun _ _ _ _ => (same_updateHead _ _).lists rfl
  | setHead => exact hi.quietRequest same_setHead rfl
  | queryHead => exact hi.quietRequest same_queryHead rfl
  | setNotices => exact hi.request fun b _ => lists_setNotices b
  | reset => exact hi.request fun b _ => lists_resetRequest b

theorem linkKept_claim : Claims.LinkKept :=
  kept_of_exec (fun c _ => exec_linkInv c) (fun _ _ h => h) fun _ h => h

/-- Settles O19: each operation keeps the facts of the heads; and of the Link Controller each raises notices only, the
requests and replies moving where the rules leave them room. -/
theorem headsAndLinkKept : Obligations.HeadsAndLinkKept := ⟨headsKept_claim, linkKept_claim⟩

end link
end Sys2Proof.Machine

namespace Sys2Proof.Machine

/-! ### The requests of the Head Links (R167, R176) -/

section requests
variable {s : State} {n : Nat} {body : List Byte} {h : HeadNo}

theorem HeadSource.ofCode_le (hn : n ≤ 1) : HeadSource.ofCode n = some (if n = 0 then .live else .preview) :=
  match n with
  | 0 => rfl
  | 1 => rfl

theorem HeadSource.le_of_code {x : HeadSource} (hx : HeadSource.ofCode n = some x) : n ≤ 1 := by
  unfold HeadSource.ofCode at hx
  split at hx
  · exact Nat.zero_le _
  · exact Nat.le_refl _
  · cases hx

theorem le_of_flagOf {b : Bool} (hb : flagOf n = some b) : n ≤ 1 :=
  Nat.not_lt.1 fun hn => by rw [flagOf_gt hn] at hb; cases hb

/-- The settings that a Set Head asks for, whatever their values (R167). -/
def askedSettings (body : List Byte) : ViewSettings :=
  { enable := u8 body 1 = 1, source := if u8 body 2 = 0 then .live else .preview, mirror := u8 body 3 = 1
    rows := u8 body 4, readingRow := u8 body 5 }

/-- The values of a Set Head that R167 takes. -/
abbrev SettingsInRange (body : List Byte) : Prop :=
  u8 body 1 ≤ 1 ∧ u8 body 2 ≤ 1 ∧ u8 body 3 ≤ 1 ∧ 4 ≤ u8 body 4 ∧ u8 body 4 ≤ 24 ∧ u8 body 5 < u8 body 4

theorem setHead_taken (hh : u8 body 0 = h.val) (hr : SettingsInRange body) (s : State) :
    setHead body s = done [] (s.withHead h { s.heads[h] with settings := askedSettings body }) := by
  obtain ⟨h1, h2, h3, hv⟩ := hr
  unfold setHead
  rw [withFour_port hh]
  dsimp only
  rw [flagOf_le h1, HeadSource.ofCode_le h2, flagOf_le h3]
  exact if_pos hv

theorem setHead_refused (hh : u8 body 0 = h.val) (hr : ¬SettingsInRange body) (s : State) :
    setHead body s = refuse .range s := by
  unfold setHead
  rw [withFour_port hh]
  dsimp only
  split
  case h_1 h1 h2 h3 => exact if_neg fun hv => hr ⟨le_of_flagOf h1, HeadSource.le_of_code h2, le_of_flagOf h3, hv⟩
  · rfl

/-- Settles O60: the fields of Set Head are judged together, and Query Head reads the head. -/
theorem headRequests : Obligations.HeadRequests := by
  intro s
  refine ⟨fun body hs => ⟨fun hr => ?_, fun h hh hr => ?_⟩, fun b hs => ⟨fun hb => ?_, fun h hb => ?_⟩⟩
  · refine congrArg Host.Outcome.next (runRequest_refused hs rfl ?_)
    by_cases h4 : 4 ≤ u8 body 0
    · exact withFour_range h4 _ _
    · obtain ⟨h, hh⟩ := port_of_field h4
      exact setHead_refused hh (hr.resolve_left h4) _
  · exact congrArg Host.Outcome.next (runRequest_done hs rfl (setHead_taken hh hr _) rfl rfl)
  · exact congrArg Host.Outcome.next (runRequest_refused hs rfl (withFour_range hb _ _))
  · exact congrArg Host.Outcome.next (runRequest_done hs rfl (withFour_port hb _ _) rfl rfl)

end requests
end Sys2Proof.Machine

namespace Sys2Proof.Machine

/-! ### A view built from a publish (R168 to R172) -/

section view
variable {t : TextStore} {x : ScriptTable} {v : ViewSettings} {b : Nat} {r : Reach}

/-- A row on one side of the source, counted from it: a line, the GAP that ended them, or BLANK (R169). -/
def rowAt (t : TextStore) (ls : List Nat) (gap : Bool) (i : Nat) : RowEntry :=
  match ls[i]? with
  | some b => lineEntry t b
  | none => if gap = true ∧ i = ls.length then .gap else .blank

theorem rowsFrom_get {n i : Nat} (hi : i < n) (ls : List Nat) (gap : Bool) :
    (rowsFrom t n ls gap)[i]? = some (rowAt t ls gap i) := by
  unfold rowsFrom rowAt
  rw [List.getElem?_take_of_lt hi]
  rcases Nat.lt_or_ge i ls.length with hl | hl
  · rw [List.append_assoc, List.getElem?_append_left (by simpa using hl), List.getElem?_map,
      List.getElem?_eq_getElem hl]
    rfl
  · have hnone : ls[i]? = none := List.getElem?_eq_none hl
    rw [List.append_assoc, List.getElem?_append_right (by simpa using hl), List.length_map, hnone]
    cases gap with
    | false =>
      simp [List.getElem?_replicate]
      omega
    | true =>
      rcases Nat.eq_or_lt_of_le hl with he | hlt
      · simp [he]
      · obtain ⟨j, hj⟩ : ∃ j, i - ls.length = j + 1 := ⟨i - ls.length - 1, by omega⟩
        simp [hj, List.getElem?_replicate]
        omega

/-- The reading row is the source's, the rows above it are those behind and the rows below it those ahead (R169). -/
theorem tableAround_reading : (tableAround t v b r)[v.readingRow]? = some (lineEntry t b) := by
  unfold tableAround
  rw [List.getElem?_append_right (by simp [rowsFrom_length])]
  simp [rowsFrom_length]

theorem tableAround_above {i : Nat} (hi : i < v.readingRow) :
    (tableAround t v b r)[v.readingRow - 1 - i]? = some (rowAt t r.back r.backGap i) := by
  have hl : (rowsFrom t v.readingRow r.back r.backGap).length = v.readingRow := rowsFrom_length _ _ _ _
  unfold tableAround
  rw [List.getElem?_append_left (by rw [List.length_reverse, hl]; omega), List.getElem?_reverse (by omega), hl,
    show v.readingRow - 1 - (v.readingRow - 1 - i) = i by omega, rowsFrom_get hi]

theorem tableAround_below {i : Nat} (hi : i < v.rows - v.readingRow) :
    (tableAround t v b r)[v.readingRow + 1 + i]? = some (rowAt t r.fore r.foreGap i) := by
  have hl : (rowsFrom t v.readingRow r.back r.backGap).reverse.length = v.readingRow := by
    rw [List.length_reverse, rowsFrom_length]
  unfold tableAround
  rw [List.getElem?_append_right (by omega), hl, show v.readingRow + 1 + i - v.readingRow = i + 1 by omega,
    List.getElem?_cons_succ, rowsFrom_get hi]

/-- The source block of a view (R168). -/
def Publish.source (p : Publish) : HeadSource → Option Nat
  | .live => p.live.map (·.block)
  | .preview => p.preview

theorem viewRows_reach {s : State} (h : s.script.sourceReach v.source b = some r) :
    viewRows s v (some b) = (tableAround s.store v b r, s.script.slugAt b) := by
  simp only [viewRows, h]

/-- A VOID source, and one whose block has left its place (R168, R170). -/
theorem viewRows_void {s : State} {o : Option Nat} (h : ∀ b, o = some b → s.script.sourceReach v.source b = none) :
    viewRows s v o = (List.replicate (v.rows + 1) .blank, []) := by
  cases o with
  | none => rfl
  | some b => simp only [viewRows, h b rfl]

theorem storyReach_ready {k : Slot} {n : Nat} (hl : x.locate b = some (k, n)) (hk : x.stories[k].state = .ready) :
    x.storyReach b = some { back := (x.stories[k].lines.take n).reverse, backGap := false,
                            fore := x.stories[k].lines.drop (n + 1), foreGap := false } := by
  simp only [ScriptTable.storyReach, hl, if_pos hk]

theorem storyReach_none (h : ∀ k n, x.locate b = some (k, n) → x.stories[k].state ≠ .ready) : x.storyReach b = none := by
  unfold ScriptTable.storyReach
  split
  case h_1 k i hl => exact if_neg (h k i hl)
  · rfl

/-- What is read of the script around a source block: LIVE its reach, PREVIEW its own READY story (R169, R170). -/
theorem sourceReach_some {src : HeadSource} {k : Slot} {n : Nat} (hl : x.locate b = some (k, n))
    (hlive : src = .live → x.reach b = some r)
    (hprev : src = .preview → x.stories[k].state = .ready ∧ r = {
      back := (x.stories[k].lines.take n).reverse, backGap := false,
      fore := x.stories[k].lines.drop (n + 1), foreGap := false }) : x.sourceReach src b = some r := by
  cases src with
  | live => exact hlive rfl
  | preview =>
    obtain ⟨hk, rfl⟩ := hprev rfl
    exact storyReach_ready hl hk

theorem sourceReach_none {src : HeadSource} (hlive : src = .live → x.reach b = none)
    (hprev : src = .preview → ∀ k n, x.locate b = some (k, n) → x.stories[k].state ≠ .ready) :
    x.sourceReach src b = none := by
  cases src with
  | live => exact hlive rfl
  | preview => exact storyReach_none (hprev rfl)

end view

section publish
variable {s : State} {h : HeadNo} {p : Publish}

theorem buildView_rows (p : Publish) (hd : Head) (s : State) :
    ((buildView p hd s).table, (buildView p hd s).slug) =
      viewRows s hd.settings (p.source hd.settings.source) := rfl

theorem buildView_offset (p : Publish) (hd : Head) (s : State) : (buildView p hd s).offset =
    if hd.settings.source = .live then (p.live.map (·.sub)).getD 0 else 0 := by
  cases hsrc : hd.settings.source <;> simp [buildView, hsrc]

theorem enterHistory_eq (v : View) (l : List View) : enterHistory v l =
    (if l.any (fun w => w.frame = v.frame) then l.filter (fun w => w.frame ≠ v.frame)
      else if l.length < 2 then l else l.drop 1) ++ [v] := by
  unfold enterHistory
  split <;> rfl

theorem takePublish_unshown (hs : s.heads[h].up = false ∨ s.heads[h].settings.enable = false) :
    takePublish p h s = s := by
  refine if_neg fun ⟨hup, hen⟩ => ?_
  rcases hs with hs | hs
  · exact nomatch hs.symm.trans hup
  · exact nomatch hs.symm.trans hen

theorem takePublish_shown (hup : s.heads[h].up = true) (hen : s.heads[h].settings.enable = true) :
    takePublish p h s = s.withHead h { s.heads[h] with
      history := enterHistory (buildView p s.heads[h] s) s.heads[h].history
      queue := listView (buildView p s.heads[h] s) s.heads[h].queue } :=
  if_pos ⟨hup, hen⟩

/-- A head takes the publish at the head of its channel. -/
theorem exec_viewBuild {req : Bool} {rest : List (Msg Publish)} {u : State}
    (hm : s.mail.publish[h] = { req := req, body := p } :: rest)
    (hu : takePublish p h (State.withCause (s.withMail { s.mail with
      publish := s.mail.publish.set h.val rest h.isLt }) req) = u) :
    exec (.viewBuild h) s = .next (sendIfIdle (u.withCause false)) := by
  subst hu
  show Host.Outcome.next (takeHead _ _ _ _ _) = _
  rw [hm]
  rfl

theorem viewBuild_claim : Claims.ViewBuild := by
  intro s h req p rest hm
  refine ⟨fun hoff => exec_viewBuild hm (takePublish_unshown hoff), fun hup hen hr => ⟨buildView p s.heads[h] s, ?_,
    rfl, rfl, rfl, rfl, rfl, rfl, rfl, rfl, buildView_offset _ _ _, viewRows_length hr _ _,
    fun b k n r hb hl hlive hprev => ?_, fun hvoid => ?_⟩⟩
  · rw [exec_viewBuild hm (takePublish_shown hup hen), enterHistory_eq]
    rfl
  · have hrows := buildView_rows p s.heads[h] s
    have hsource : p.source s.heads[h].settings.source = some b := hb
    rw [hsource, viewRows_reach (sourceReach_some hl hlive hprev)] at hrows
    obtain ⟨htable, hslug⟩ := Prod.mk.inj hrows
    rw [htable, hslug]
    refine ⟨?_, tableAround_reading, fun i hi => tableAround_above hi, fun i hi => tableAround_below hi⟩
    simp only [ScriptTable.slugAt, hl]
  · have hrows := buildView_rows p s.heads[h] s
    have hnone (b : Nat) (hb : p.source s.heads[h].settings.source = some b) :
        s.script.sourceReach s.heads[h].settings.source b = none :=
      sourceReach_none (hvoid b hb).1 (hvoid b hb).2
    rw [viewRows_void hnone] at hrows
    obtain ⟨htable, hslug⟩ := Prod.mk.inj hrows
    exact ⟨hslug, htable⟩

end publish
end Sys2Proof.Machine

namespace Sys2Proof.Machine

/-! ### The characters of a head link (R179, R190) -/

section chars
variable {s : State} {h : HeadNo} {r r' : RxState} {c : LineChar} {kind : Byte} {body : List Byte}

/-- The part once the receiver of a head has come to a state at the present moment. -/
def State.receiving (s : State) (h : HeadNo) (r : RxState) : State :=
  s.withHead h { s.heads[h] with rx := { state := r, lastAt := s.now } }

@[simp] theorem receiving_head (s : State) (h : HeadNo) (r : RxState) :
    (s.receiving h r).heads[h] = { s.heads[h] with rx := { state := r, lastAt := s.now } } := withHead_self _ _ _

@[simp] theorem receiving_twice (s : State) (h : HeadNo) (r r' : RxState) :
    (s.receiving h r).receiving h r' = s.receiving h r' := by
  rw [State.receiving, receiving_head]
  exact withHead_twice _ _ _ _

theorem headChar_receives (hx : s.heads[h].rx.state = r) (hc : rxTake r c = (r', .quiet)) :
    headChar h s c = s.receiving h r' := by
  simp only [headChar, hx, hc]
  rfl

theorem headChar_faults (hx : s.heads[h].rx.state = r) {e : LinkErrorCause} (hc : rxTake r c = (r', .fault e)) :
    headChar h s c = s.receiving h r' := by
  simp only [headChar, hx, hc]
  rfl

theorem headChar_ends (hx : s.heads[h].rx.state = r) (hc : rxTake r c = (r', .frame kind body)) :
    headChar h s c = takeHeadFrame h kind body (s.receiving h r') := by
  simp only [headChar, hx, hc]
  rfl

/-- The kind and body of a frame, byte after byte. -/
theorem headChar_collects {n : Nat} : ∀ (bs got : List Byte), got.length + bs.length ≤ n →
    (goodChars bs).foldl (headChar h) (s.receiving h (.collecting n got)) = s.receiving h (.collecting n (got ++ bs))
  | [], got, _ => by rw [List.append_nil]; rfl
  | b :: bs, got, hn => by
    have hlt : got.length < n := by rw [List.length_cons] at hn; omega
    have hc : rxTake (.collecting n got) { byte := b, stop := true } = (.collecting n (got ++ [b]), .quiet) := by
      simp [rxTake, hlt]
    have ih := headChar_collects (n := n) bs (got ++ [b]) (by
      rw [List.length_append, List.length_singleton, Nat.add_assoc, Nat.add_comm 1]
      exact hn)
    rw [goodChars, List.map_cons, List.foldl_cons, headChar_receives (by rw [receiving_head]) hc, receiving_twice]
    rw [goodChars] at ih
    rw [ih, List.append_assoc]
    rfl

/-- A frame whose characters a hunting receiver meets: its check byte says whether it is taken. -/
theorem headChars_frame (hx : s.heads[h].rx.state = .hunting) (hlen : body.length ≤ 199) (check : Byte) :
    headChars h (goodChars (0xA5 :: byte (body.length + 1) :: kind :: body ++ [check])) s =
      if crc8 (byte (body.length + 1) :: kind :: body) = check then takeHeadFrame h kind body (s.receiving h .hunting)
      else s.receiving h .hunting := by
  have hn : (byte (body.length + 1)).toNat = body.length + 1 := by
    rw [byte, BitVec.toNat_ofNat, Nat.mod_eq_of_lt (by omega)]
  have hready : s.heads[h].rx.timedOut s.now = false := by
    unfold LinkRx.timedOut
    rw [hx]
    rfl
  have hgap : headGap h s = s := if_neg (by rw [hready]; nofun)
  have hstart : rxTake .hunting { byte := 0xA5, stop := true } = (.length, .quiet) := rfl
  have hcount : rxTake .length { byte := byte (body.length + 1), stop := true } =
      (.collecting (body.length + 1) [], .quiet) := by
    have hpos : byte (body.length + 1) ≠ 0 := fun e => by rw [e] at hn; cases hn
    simp only [rxTake, Bool.not_true, Bool.false_eq_true, if_false, hn]
    exact if_neg fun hb => hb.elim hpos (by omega)
  have hsplit : goodChars (0xA5 :: byte (body.length + 1) :: kind :: body ++ [check]) =
      { byte := 0xA5, stop := true } :: { byte := byte (body.length + 1), stop := true } ::
        (goodChars (kind :: body) ++ [{ byte := check, stop := true }]) := by
    simp [goodChars]
  rw [headChars, hgap, hsplit, List.foldl_cons, headChar_receives hx hstart, List.foldl_cons,
    headChar_receives (by rw [receiving_head]) hcount, receiving_twice, List.foldl_append,
    headChar_collects _ _ (by simp), List.foldl_cons, List.foldl_nil, List.nil_append]
  have hend : rxTake (.collecting (body.length + 1) (kind :: body)) { byte := check, stop := true } =
      if crc8 (byte (body.length + 1) :: kind :: body) = check then (.hunting, .frame kind body)
      else (.hunting, .fault .check) := by
    simp [rxTake]
  split
  case isTrue hk =>
    rw [headChar_ends (by rw [receiving_head]) (hend.trans (if_pos hk)), receiving_twice]
  case isFalse hk =>
    rw [headChar_faults (by rw [receiving_head]) (hend.trans (if_neg hk)), receiving_twice]

/-- A whole frame with its right check byte. -/
theorem headChars_linkFrame (hx : s.heads[h].rx.state = .hunting) (hlen : body.length ≤ 199) :
    headChars h (goodChars (linkFrame kind body)) s = takeHeadFrame h kind body (s.receiving h .hunting) :=
  (headChars_frame hx hlen _).trans (if_pos rfl)

end chars

/-! ### Frames from the renderer (R164, R173) -/

section renderer
variable {s : State} {h : HeadNo} {hd : Head} {kind : Byte} {body : List Byte}
  {frame : Half} {row : Nat} {t : TextStore} {v : View}

theorem takeFetch_full (hf : 16 ≤ (hd.queue.filter (fun f => !f.isView)).length) : takeFetch frame row t hd = hd :=
  if_pos (decide_eq_true hf)

theorem takeFetch_answered (hf : (hd.queue.filter (fun f => !f.isView)).length < 16) : takeFetch frame row t hd =
    { hd with queue := hd.queue ++ [.reply frame row (fetchOutcome t hd.history frame row)] } :=
  if_neg fun e => Nat.not_le.2 hf (of_decide_eq_true e)

theorem Head.silent_iff (hd : Head) (now : Nat) :
    hd.silent now = true ↔ hd.up = true ∧ hd.silentSince + 300000 ≤ now := by
  rw [Head.silent, Bool.and_eq_true_iff, decide_eq_true_iff]
  rfl

theorem Head.heard_eq (hup : hd.up = true) (now : Nat) :
    hd.heard now = { hd with silentSince := if hd.silentSince + 300000 ≤ now then hd.silentSince else now } := by
  unfold Head.heard
  by_cases hdue : hd.silentSince + 300000 ≤ now
  · rw [if_pos ((hd.silent_iff now).2 ⟨hup, hdue⟩), if_pos hdue]
  · rw [if_neg fun e => hdue ((hd.silent_iff now).1 e).2, if_neg hdue]

/-! The outcome of a fetch, case by case (R173) -/

theorem fetchOutcome_expired {l : List View} (hv : ∀ v ∈ l, v.frame ≠ frame) : fetchOutcome t l frame row = .expired := by
  have hn : l.find? (fun v => v.frame = frame) = none := List.find?_eq_none.2 fun v hm => by simpa using hv v hm
  simp only [fetchOutcome, hn]

section found
variable {l : List View} (hv : l.find? (fun w => w.frame = frame) = some v)
include hv

theorem fetchOutcome_beyond (hr : v.rows + 1 ≤ row) : fetchOutcome t l frame row = .blank := by
  simp only [fetchOutcome, hv, if_pos hr]

theorem fetchOutcome_blank (hr : row ≤ v.rows) (he : v.table[row]? = some .blank) :
    fetchOutcome t l frame row = .blank := by
  simp only [fetchOutcome, hv, if_neg (Nat.not_le.2 (Nat.lt_succ_of_le hr)), he]

theorem fetchOutcome_gap (hr : row ≤ v.rows) (he : v.table[row]? = some .gap) : fetchOutcome t l frame row = .gap := by
  simp only [fetchOutcome, hv, if_neg (Nat.not_le.2 (Nat.lt_succ_of_le hr)), he]

theorem fetchOutcome_text {b : Nat} {gen : Byte} {r : LineRecord} (hr : row ≤ v.rows)
    (he : v.table[row]? = some (.line b gen)) (hb : t.read b = { gen := gen, record := some r }) :
    fetchOutcome t l frame row = .text gen r := by
  simp only [fetchOutcome, hv, if_neg (Nat.not_le.2 (Nat.lt_succ_of_le hr)), he, hb, if_true]

theorem fetchOutcome_changed {b : Nat} {gen : Byte} (hr : row ≤ v.rows) (he : v.table[row]? = some (.line b gen))
    (hb : (t.read b).gen ≠ gen ∨ (t.read b).record = none) : fetchOutcome t l frame row = .changed := by
  simp only [fetchOutcome, hv, if_neg (Nat.not_le.2 (Nat.lt_succ_of_le hr)), he]
  split
  case h_1 r hrec => exact if_neg (hb.resolve_right (by rw [hrec]; nofun))
  · rfl

end found

/-- The frame number of a FETCH (11.8). -/
theorem frameField (f1 f0 : Byte) (rest : List Byte) : BitVec.ofNat 16 (u16 (f1 :: f0 :: rest) 0) = f1 ++ f0 := by
  refine BitVec.eq_of_toNat_eq ?_
  rw [BitVec.toNat_append, ← Nat.shiftLeft_add_eq_or_of_lt f0.isLt, Nat.shiftLeft_eq, BitVec.toNat_ofNat]
  have h1 := f1.isLt
  have h0 := f0.isLt
  show (f1.toNat * 256 + f0.toNat) % 2 ^ 16 = _
  omega

/-! The frames that a head link meets (R164, R165, R190) -/

theorem takeHeadFrame_ready : takeHeadFrame h 0x01 [] s = takeReady h s :=
  if_pos ⟨rfl, rfl⟩

theorem takeHeadFrame_fetch (hup : s.heads[h].up = true) (f1 f0 row : Byte) : takeHeadFrame h 0x02 [f1, f0, row] s =
    s.withHead h (takeFetch (f1 ++ f0) row.toNat s.store (s.heads[h].heard s.now)) := by
  rw [← frameField f1 f0 [row]]
  exact (if_neg fun hk => absurd hk.1 (by decide)).trans (if_pos ⟨rfl, rfl, hup⟩)

theorem takeHeadFrame_fetch_down (hdown : s.heads[h].up = false) (body : List Byte) :
    takeHeadFrame h 0x02 body s = s :=
  (if_neg (fun hk => absurd hk.1 (by decide))).trans
    (if_neg fun ⟨_, _, hup⟩ => Bool.false_ne_true (hdown.symm.trans hup))

theorem takeHeadFrame_unknown (hk : kind ≠ 0x01 ∧ kind ≠ 0x02) : takeHeadFrame h kind body s = s :=
  (if_neg fun e => hk.1 e.1).trans (if_neg fun e => hk.2 e.1)

theorem takeReady_receiving : takeReady h (s.receiving h .hunting) =
    if s.heads[h].up then
      s.withHead h { s.heads[h] with rx := { state := .hunting, lastAt := s.now }, silentSince := s.now }
    else raise .headChanged (s.withHead h { s.heads[h] with
      rx := { state := .hunting, lastAt := s.now }, up := true, silentSince := s.now, history := [] }) := by
  unfold takeReady
  rw [receiving_head]
  simp only [State.receiving, withHead_twice]
  rfl

theorem event_linkFrame {u : State} (hx : s.heads[h].rx.state = .hunting) (hlen : body.length ≤ 199)
    (hu : takeHeadFrame h kind body ((s.withCause false).receiving h .hunting) = u) (hc : u.cause = false) :
    ran (event false (headChars h (goodChars (linkFrame kind body))) s) = .next (sendIfIdle u) :=
  event_next ((headChars_linkFrame (s := s.withCause false) hx hlen).trans hu) hc

/-- A frame with a bad check, and one of a kind that the link does not know, change nothing but the receiver (R190). -/
theorem event_discarded (hx : s.heads[h].rx.state = .hunting) (hlen : body.length ≤ 199) {check : Byte}
    (hbad : check ≠ crc8 (byte (body.length + 1) :: kind :: body) ∨ (kind ≠ 0x01 ∧ kind ≠ 0x02)) :
    ran (event false (headChars h (goodChars (0xA5 :: byte (body.length + 1) :: kind :: body ++ [check]))) s) =
      .next (sendIfIdle ((s.withCause false).receiving h .hunting)) := by
  refine event_next ((headChars_frame (s := s.withCause false) hx hlen check).trans ?_) rfl
  split
  case isTrue hk => exact takeHeadFrame_unknown (hbad.resolve_left fun hne => hne hk.symm)
  · rfl

/-- A FETCH that reaches a link in UP. -/
theorem event_fetch {q : Head} {f1 f0 row : Byte} (hx : s.heads[h].rx.state = .hunting) (hup : s.heads[h].up = true)
    (hq : takeFetch (f1 ++ f0) row.toNat s.store (((s.receiving h .hunting).heads[h]).heard s.now) = q) :
    ran (event false (headChars h (goodChars (linkFrame 0x02 [f1, f0, row]))) s) =
      .next (sendIfIdle ((s.withCause false).withHead h q)) := by
  have hup' : ((s.withCause false).receiving h .hunting).heads[h].up = true := by rw [receiving_head]; exact hup
  subst hq
  exact event_linkFrame hx (Nat.le_add_left 3 196)
    ((takeHeadFrame_fetch hup' f1 f0 row).trans (withHead_twice _ _ _ _)) rfl

theorem rendererFrames_claim : Claims.RendererFrames := by
  intro s h hx
  refine ⟨event_linkFrame hx (Nat.zero_le _) (takeHeadFrame_ready.trans takeReady_receiving) (by split <;> rfl),
    fun f1 f0 row => ⟨fun hdown => ?_, fun hup hf => ?_, fun hup hf => ?_⟩,
    fun kind body check hlen hbad => event_discarded hx hlen hbad⟩
  · refine event_linkFrame hx (Nat.le_add_left 3 196) (takeHeadFrame_fetch_down ?_ _) rfl
    rw [receiving_head]
    exact hdown
  · refine event_fetch hx hup ?_
    rw [receiving_head, Head.heard_eq hup]
    exact takeFetch_full hf
  · refine ⟨fetchOutcome s.store s.heads[h].history (f1 ++ f0) row.toNat, event_fetch hx hup ?_,
      fetchOutcome_expired, fun v hv => ⟨fetchOutcome_beyond hv, fun hr =>
        ⟨fetchOutcome_blank hv hr, fetchOutcome_gap hv hr, fun b gen he =>
          ⟨fun r => fetchOutcome_text hv hr he, fetchOutcome_changed hv hr he⟩⟩⟩⟩
    rw [receiving_head, Head.heard_eq hup]
    exact takeFetch_answered hf

/-- The work of the silence of a link (R164). -/
theorem silence_eq (h : HeadNo) (s : State) : (if s.heads[h].silent s.now then
      raise .headChanged (updateHead h (fun hd => { hd with up := false, history := [], queue := [] }) s) else s) =
    if s.heads[h].up = true ∧ s.heads[h].silentSince + 300000 ≤ s.now then
      raise .headChanged (s.withHead h { s.heads[h] with up := false, history := [], queue := [] }) else s :=
  ite_congr (propext (Head.silent_iff _ _)) (fun _ => rfl) fun _ => rfl

theorem headEvents_claim : Claims.HeadEvents := by
  intro s h
  refine ⟨event_next (silence_eq h (s.withCause false)) (by split <;> rfl), rfl, fun req rest hm => ?_,
    fun req rest hm => ?_⟩
  · show Host.Outcome.next (takeHead _ _ _ _ _) = _
    rw [hm]
    rfl
  · show Host.Outcome.next (takeHead _ _ _ _ _) = _
    rw [hm]
    rfl

end renderer

/-- Settles O59: a publish shows the rows around its source; a renderer's frame is met character by character; silence,
the transmitter and the cue flag are one step each. -/
theorem headLinks : Obligations.HeadLinks := ⟨viewBuild_claim, rendererFrames_claim, headEvents_claim⟩

end Sys2Proof.Machine

namespace Sys2Proof.Machine

/-! ### What each command changes (R40, R182, R183)

The transmitter waits only for want of a frame, so at the end of an event it sends no more than the event has placed or
listed; `same_sendIfIdle` says so, and each command below is its own work under it. -/

section touches
variable {ps qs : List Part} {s : State}

/-- An event as a command brings it. -/
theorem event_same {req : Bool} {f : State → State} (hw : s.Waits) (h : ∀ u, Same ps u (f u))
    (he : .ending ∉ ps := by simp [touches]) (hs : .sending :: ps ⊆ qs := by simp [touches]) :
    Same qs s (event req f s) :=
  (same_event hw h he).mono hs

/-- An event that neither places a reply nor lists a notice. -/
theorem quietEvent_same {req : Bool} {f : State → State} (hw : s.Waits) (h : ∀ u, Same ps u (f u))
    (hq : unlisted ps = true := by rfl) (hs : .sending ∉ ps := by simp [touches]) : Same ps s (event req f s) :=
  same_quietEvent hw h (not_mem_of_unlisted hq).1 (not_mem_of_unlisted hq).2 hs

/-- Taking a message whose event neither places a reply nor lists a notice. -/
theorem quietTake_same {α β : Type} {c : List (Msg α)} {want : α → Option β} {x : List (Msg α) → State → Mail}
    {f : β → State → State} (hw : s.Waits) (hf : ∀ a u, Same ps u (f a u)) (hm : [.mail] ⊆ ps := by simp [touches])
    (hq : unlisted ps = true := by rfl) (hs : .sending ∉ ps := by simp [touches]) :
    Same ps s (takeHead c want (fun r u => u.withMail (x r u)) f s) := by
  unfold takeHead
  split
  · split
    · exact ((same_withMail _).mono hm).trans (quietEvent_same hw (hf _) hq hs)
    · exact Same.rfl
  · exact Same.rfl

/-- Taking a message whose event may set the transmitter going. -/
theorem take_same {α β : Type} {c : List (Msg α)} {want : α → Option β} {x : List (Msg α) → State → Mail}
    {f : β → State → State} (hw : s.Waits) (hf : ∀ a u, Same ps s u → Same ps s (f a u))
    (hm : [.mail, .sending] ⊆ ps := by simp [touches]) (he : .ending ∉ ps := by simp [touches]) :
    Same ps s (takeHead c want (fun r u => u.withMail (x r u)) f s) :=
  same_takeHeadOf hw (fun _ _ => same_withMail _) (hm (by simp)) hf he (hm (by simp))

/-- A request changes the queues, the frame being sent and what its owner changes (R182). -/
theorem request_same {n : Nat} {owner : List Byte → State → Answer} (hw : s.Waits)
    (h : ∀ {u} b, Same ps u (owner b u).state) (he : .ending ∉ ps := by simp [touches])
    (hs : .sending :: .link :: ps ⊆ qs := by simp [touches]) : Same qs s (runRequest n owner s) :=
  (same_runRequest hw (fun b u => (h b).mono (by simp)) he).mono hs

/-- Of two requests with one code one is meant, by what its body says (log 25). -/
theorem requestIf_same {meant : Request → Bool} {owner : List Byte → State → Answer} (hw : s.Waits)
    (h : ∀ {u} b, Same ps u (owner b u).state) (he : .ending ∉ ps := by simp [touches])
    (hs : .sending :: .link :: ps ⊆ qs := by simp [touches]) : Same qs s (runRequestIf meant owner s) :=
  (same_runRequestIf hw (fun b u => (h b).mono (by simp)) he).mono hs

/-- What an event of the Scroll Engine that is no travel can change. -/
abbrev engineParts : List Part := [.engine, .mail, .notices, .sending]

theorem takeReportIf_same (want : ScriptReport → Bool) (hw : s.Waits) : Same engineParts s (takeReportIf want s) :=
  take_same hw fun r _ hu => .after same_takeReports (by simp) (.after (same_takeReport r) (by simp) hu)

theorem takeInputIf_same {want : HolderInput → Option (State → State)} (hw : s.Waits)
    (h : ∀ i f, want i = some f → ∀ u, Same ps s u → Same ps s (f u))
    (hq : engineParts ⊆ ps := by simp [touches]) (he : .ending ∉ ps := by simp [touches]) :
    Same ps s (takeInputIf want s) := by
  unfold takeInputIf takeHead
  split
  · split
    · next x hx =>
      refine same_sendIfIdle hw (.after (same_withCause false) (by simp) (h _ _ hx _ (same_engineReady hw ?_ he hq))) he
        (hq (by simp))
      exact .after (same_withCause _) (by simp) ((same_withMail _).mono (by simpa using hq (by simp)))
    · exact Same.rfl
  · exact Same.rfl

theorem arbiterMsg_same {p : PortNo} {want : PortMsg → Option Unit} {f : Arbiter → Arbiter} (hw : s.Waits) :
    Same [.arbiter, .mail, .notices, .sending] s (takePortMsg p want (fun _ => arbiterEvent f) s) :=
  take_same hw fun _ _ hu => .after (same_arbiterEvent _) (by simp) hu

/-- A message at a port, after what the last poll has left it to do (log 10). -/
theorem portMsg_same {α β : Type} {c : List (Msg α)} {want : α → Option β} {x : List (Msg α) → State → Mail}
    {p : PortNo} {f : β → Port → Port} (hw : s.Waits) : Same [.ports, .mail, .notices, .sending] s
      (takeHead c want (fun r u => u.withMail (x r u)) (fun a u => updatePort p (f a) (portReady p u)) s) :=
  take_same hw fun _ _ hu => .after (same_updatePort _ _) (by simp) (same_portReady p hw hu)

/-- A message that brings a rebuild, after what the last frame start has left the Cue Monitor to do (log 10). -/
theorem cueMsg_same {α β : Type} {c : List (Msg α)} {want : α → Option β} {x : List (Msg α) → State → Mail}
    (hw : s.Waits) : Same [.cues, .mail, .notices, .sending] s
      (takeHead c want (fun r u => u.withMail (x r u)) (fun _ u => rebuild (finishCueWork u)) s) :=
  take_same hw fun _ _ hu => .after same_rebuild (by simp) (same_finishCueWork hw hu (by simp) (by simp))

/-- The characters of the host link, or their lateness, each fault with the transmitter's turn (R183). -/
theorem hostChars_same (cs : List LineChar) (hw : s.Waits) :
    Same [.link, .notices, .sending] s (event false (hostChars cs) s) :=
  same_eventOf hw (fun _ hu => same_hostChars cs hw hu) (by simp) (by simp)

theorem hostGap_same (hw : s.Waits) : Same [.link, .notices, .sending] s (event false hostGap s) :=
  same_eventOf hw (fun _ hu => same_hostGap hw hu) (by simp) (by simp)

theorem headChars_same (h : HeadNo) (cs : List LineChar) (hw : s.Waits) :
    Same [.heads, .notices, .sending] s (event false (headChars h cs) s) :=
  event_same hw fun _ => same_headChars h cs

theorem unknownRequest_same (hw : s.Waits) : Ends (execUnknownRequest s) (Same [.link, .sending] s) := by
  show Same _ s _
  split
  · exact Same.rfl
  · exact same_iteState (event_same hw fun _ => same_withLinkOnly _) Same.rfl

/-- The end of a transmission: the transmitter's choice, after which its turn adds nothing. -/
theorem event_transmitNext (s : State) : event false transmitNext s = transmitNext (s.withCause false) := by
  unfold event
  rw [sendIfIdle_withCause, sendIfIdle_transmitNext, transmitNext_withCause, State.withCause_withCause]

theorem transmitEnds_same : Same [.link, .notices, .sending, .ending, .cues] s (event false transmitNext s) := by
  rw [event_transmitNext]
  exact ((same_withCause false).mono (by simp)).trans same_transmitNext

/-- A reset may change every part; the queue of commands is not the part's (R186, R187). -/
theorem takeReset_pending {u : State} (x : Scope) (hw : s.Waits) (hu : Same [.cues, .mail, .notices, .sending] s u) :
    (takeReset x u).pending = s.pending := by
  have hf : (finishCueWork u).pending = s.pending := (same_finishCueWork hw hu (by simp) (by simp)).pending
  have hb : (resetBlocks x (finishCueWork u)).pending = s.pending := by rw [resetBlocks_eq]; exact hf
  unfold takeReset resetLink
  split
  · exact hb
  · exact same_transmitNext.pending.trans hb

theorem resetTakesEffect_pending (hw : s.Waits) :
    Ends (execResetTakesEffect s) (fun t => t.pending = s.pending) := by
  show State.pending _ = _
  split
  · split
    · exact (sendIfIdle_pending _).trans (takeReset_pending _ hw ((same_withCause true).mono (by simp)))
    · rfl
  · rfl

/-- Two states with one queue of commands, every part free to differ. -/
theorem Same.of_pending {t : State} (h : t.pending = s.pending) : Same (touches .resetTakesEffect) s t := by
  constructor
  case pending => exact h
  all_goals intro hp; simp [touches] at hp

/-- A command changes only the parts that the rules let it change: its own work does, and so does what its block does
first. -/
theorem exec_same (c : Instr) (hw : s.Waits) : Ends (exec c s) (Same (touches c) s) := by
  cases c with
  | powerOnReset a b => exact Same.of_pending rfl
  | resetTakesEffect => exact Same.of_pending (resetTakesEffect_pending hw)
  | checkedFrame cs => exact hostChars_same cs hw
  | receiveFault cs => exact hostChars_same cs hw
  | frameTimeout => exact hostGap_same hw
  | unknownRequest => exact unknownRequest_same hw
  | transmitNext => exact same_iteState Same.rfl transmitEnds_same
  | openStory => exact request_same hw same_openStory
  | appendLine => exact request_same hw same_appendLine
  | closeStoryCommit => exact requestIf_same hw same_closeCommit
  | closeStoryAbandon => exact requestIf_same hw same_closeAbandon
  | freeStory => exact request_same hw same_freeStory
  | setStory => exact request_same hw same_setStory
  | queryStory => exact request_same hw same_queryStory
  | queryStore => exact request_same (ps := []) hw fun _ => Same.rfl
  | placeEntry => exact request_same hw same_placeEntry
  | moveEntry => exact request_same hw same_moveEntry
  | removeEntry => exact request_same hw same_removeEntry
  | floatEntry => exact request_same hw same_floatEntry
  | queryOrder => exact request_same (ps := []) hw fun _ => Same.rfl
  | insertLine => exact request_same hw same_insertLine
  | replaceLine => exact request_same hw same_replaceLine
  | deleteLines => exact request_same hw same_deleteLines
  | readLine => exact request_same hw same_readLine
  | queryFault => exact request_same (ps := []) hw fun _ => Same.rfl
  | clearFault => exact request_same (ps := [.script]) hw fun _ => same_withScript _
  | designationReport =>
    exact take_same hw fun k _ hu => .after (same_designation k) (by simp [touches]) hu
  | airFrameReport => exact quietTake_same hw fun k _ => (same_airFrame k).mono (by simp [touches])
  | run => exact request_same hw same_runScroll
  | stop => exact request_same (ps := [.engine]) hw fun _ => same_withEngine _
  | halt => exact request_same (ps := [.engine, .notices]) hw fun _ => same_enterHalted _
  | step => exact request_same hw same_stepScroll
  | goTo => exact request_same hw same_goToRequest
  | setSpeed => exact request_same hw same_setSpeed
  | setMotion => exact request_same hw same_setMotion
  | setPreview => exact request_same hw same_setPreview
  | queryMotion => exact request_same (ps := []) hw fun _ => Same.rfl
  | frameAdvance =>
    exact take_same hw fun f _ hu => same_frameAdvance f hw (same_engineReady hw hu (by simp) (by simp))
  | insertReport => exact takeReportIf_same _ hw
  | deleteReport => exact takeReportIf_same _ hw
  | storyIneligibleReport => exact takeReportIf_same _ hw
  | storyEligibleReport => exact takeReportIf_same _ hw
  | orderChangedReport => exact takeReportIf_same _ hw
  | setTarget =>
    exact takeInputIf_same hw fun | .setTarget _, _, rfl, _, hu => .after (same_withEngine _) (by simp [touches]) hu
  | startStopKey => exact takeInputIf_same hw fun | .key, _, rfl, _, hu => .after same_startStop (by simp [touches]) hu
  | jog => exact takeInputIf_same hw fun | .jog d, _, rfl, _, hu => same_jog d hw hu
  | stopExpiryAction =>
    exact take_same hw fun _ _ hu =>
      .after (same_withEngine _) (by simp [touches]) (same_engineReady hw hu (by simp [touches]) (by simp [touches]))
  | setDriveMode => exact request_same hw same_setDriveMode
  | setPortClass => exact request_same hw same_setPortClass
  | pinDrive => exact request_same hw same_pinDrive
  | claimDrive => exact request_same hw same_claimDrive
  | releaseDrive => exact request_same hw same_releaseDrive
  | queryDrive => exact request_same (ps := []) hw fun _ => Same.rfl
  | claim p => exact arbiterMsg_same hw
  | idle p => exact arbiterMsg_same hw
  | portReady p => exact arbiterMsg_same hw
  | portGone p => exact arbiterMsg_same hw
  | passHolderInput p => exact quietTake_same hw fun x _ => same_iteState (same_sendInput x) Same.rfl
  | standingReport p => exact portMsg_same hw
  | enablePort => exact request_same hw same_enablePort
  | disablePort => exact request_same hw same_disablePort
  | resetPort => exact request_same hw same_resetPort
  | setPort => exact request_same hw same_setPort
  | setLamp => exact request_same hw same_setLamp
  | queryPort => exact same_iteState (event_same hw fun _ => same_finishAcks) (request_same hw same_queryPort)
  | presenceFound p =>
    exact same_portEvent p hw fun _ => same_iteState
      (.after (same_setChange _ _) (by simp) ((same_updatePort _ _).mono (by simp))) Same.rfl
  | presenceLost p =>
    exact same_portEvent p hw fun _ => same_iteState (.after (same_leaveEnabled _ _) (by simp)
      (.after (same_setChange _ _) (by simp) ((same_updatePort _ _).mono (by simp)))) Same.rfl
  | holdOffEnd p =>
    refine same_portEvent p hw fun u => ?_
    split
    · exact same_iteState ((same_updatePort _ _).mono (by simp)) Same.rfl
    · exact Same.rfl
  | overcurrent p =>
    exact same_portEvent p hw fun _ => same_iteState
      (.after (same_enterFaulted _ _) (by simp) ((same_updatePort _ _).mono (by simp))) Same.rfl
  | poll p =>
    exact same_portEvent p hw fun _ => same_iteState ((same_updatePort _ _).mono (by simp)) Same.rfl
  | silenceFault p => exact same_eventOf hw (fun _ hu => same_portReady p hw hu) (by simp [touches]) (by simp [touches])
  | hello p cs => exact same_portEvent p hw fun _ => (same_portChars p cs).mono (by simp)
  | dataReport p cs => exact same_portEvent p hw fun _ => (same_portChars p cs).mono (by simp)
  | releaseTimeReached p => exact quietEvent_same hw fun _ => same_sendIdle p
  | lampFlash p => exact portMsg_same hw
  | lampFlashEnd p => exact portMsg_same hw
  | cueFrameStart =>
    exact take_same hw fun _ _ hu =>
      .after (same_withCues _) (by simp [touches]) (same_cueReady hw hu (by simp [touches]) (by simp [touches]))
  | flashCountEnd => exact quietEvent_same hw fun _ => same_endFlash
  | cueFlagCountEnd => exact quietEvent_same hw fun _ => same_endCueFlag
  | timerExpiry n =>
    exact same_iteState (event_same (ps := [.cues, .mail, .notices]) hw fun _ => .after (same_expireTimer n) (by simp)
      ((same_endFlash.trans same_endCueFlag).mono (by simp))) Same.rfl
  | positionJumped => exact cueMsg_same hw
  | lineRewritten => exact cueMsg_same hw
  | scriptChangeReport => exact cueMsg_same hw
  | queryCues => exact request_same (ps := []) hw fun _ => Same.rfl
  | skipCue => exact request_same hw same_skipCue
  | setTimer => exact request_same hw same_setTimer
  | startTimer => exact request_same hw same_startTimerRequest
  | stopTimer => exact request_same hw same_stopTimerRequest
  | queryTimers => exact request_same (ps := []) hw fun _ => Same.rfl
  | freeRunFrameStart => exact quietEvent_same hw fun _ => same_iteState same_frameStart Same.rfl
  | referencePulse => exact event_same hw fun _ => same_takePulse
  | flywheelFrame =>
    refine event_same (ps := [.clock, .mail, .notices]) hw fun _ => same_iteState ?_ Same.rfl
    exact same_iteState
      (.after (same_raise _) (by simp) (.after (same_withClock _) (by simp) (same_frameStart.mono (by simp))))
      (.after (same_withClock _) (by simp) (same_frameStart.mono (by simp)))
  | setFrame => exact request_same hw same_setFrame
  | setReference => exact request_same hw same_setReference
  | queryFrame => exact request_same (ps := []) hw fun _ => Same.rfl
  | viewBuild h => exact quietTake_same hw fun x _ => (same_takePublish x h).mono (by simp [touches])
  | headReady h cs => exact headChars_same h cs hw
  | fetch h cs => exact headChars_same h cs hw
  | headFrameDiscard h cs => exact headChars_same h cs hw
  | headSilenceTimeout h =>
    exact event_same (ps := [.heads, .notices]) hw fun _ => same_iteState
      (.after (same_raise _) (by simp) ((same_updateHead _ _).mono (by simp))) Same.rfl
  | headTransmit h => exact quietEvent_same hw fun _ => same_updateHead _ _
  | cueFlag h => exact quietTake_same hw fun _ _ => (same_updateHead _ _).mono (by simp [touches])
  | cueFlagEnd h => exact quietTake_same hw fun _ _ => (same_updateHead _ _).mono (by simp [touches])
  | setHead => exact request_same hw same_setHead
  | queryHead => exact request_same hw same_queryHead
  | identify => exact request_same (ps := []) hw fun _ => Same.rfl
  | setNotices => exact request_same hw same_setNotices
  | reset => exact request_same hw same_resetRequest

end touches

/-- Settles O13: each command's work under the transmitter's turn. -/
theorem commandsTouchOnlyTheirParts : Obligations.CommandsTouchOnlyTheirParts :=
  fun c _ _ hl h => (exec_same c hl.waits).next h
end Sys2Proof.Machine

namespace Sys2Proof.Machine

/-! ### A step with a command queued, and with none (R182; logs 1 and 2) -/

/-- Settles O1. -/
theorem stepRunsTheFront : Obligations.StepRunsTheFront := fun _ _ _ => rfl

theorem step_idle {s : State} (h : s.pending = []) :
    step s = (nextEvent s).elim (.next s.tick) (fun c => exec c s) := by
  unfold step
  split
  case h_1 c rest hc => cases h.symm.trans hc
  case h_2 => cases nextEvent s <;> rfl

theorem emptyQueue_claim : Claims.EmptyQueue := by
  intro s h
  refine ⟨fun c hc => ?_, fun hn => ?_⟩
  · rw [step_idle h, hc]; rfl
  · rw [step_idle h, hn]; rfl

end Sys2Proof.Machine

namespace Sys2Proof.Machine

/-! ### Identify, Set Notices and Reset (R184 to R186) -/

theorem linkErrorBytes_eq (x : Option (LinkErrorCause × Half)) :
    linkErrorCode x :: twoOf (linkErrorFrame x) = (match x with
      | none => [0, 0, 0]
      | some (c, frame) => (match c with
        | .check => 1 | .stopBit => 2 | .timeout => 3 | .length => 4 | .overrun => 5) :: twoOf frame) := by
  obtain _ | ⟨c, frame⟩ := x
  · rfl
  · cases c <;> rfl

theorem identify_eq (b : List Byte) (s : State) : identify b s = done
    ([0x36, 0x20, 2, 0x20, 0x00, 64, 4, 4, 6, BitVec.ofNat 8 s.link.rate] ++ twoOf s.link.mask ++
      (linkErrorCode s.link.lastError :: twoOf (linkErrorFrame s.link.lastError))) s := rfl

/-- Settles O12: the reply is read off the Link Controller, which stays as it is. -/
theorem identifyReply : Obligations.IdentifyReply := by
  intro s
  refine ⟨fun h => ?_, fun r rest hr hk hb ht => ?_⟩
  · refine congrArg Host.Outcome.next (runRequest_done h rfl ((identify_eq _ _).trans ?_) rfl rfl)
    exact congrArg (fun bytes => done (_ ++ _ ++ bytes) (s.withCause true)) (linkErrorBytes_eq _)
  · exact congrArg Host.Outcome.next (runRequest_bodyNotEmpty hr (by rw [hk]; rfl) rfl hb ht)

theorem resetRequest_some {b : Byte} {x : Scope} {s : State} (h : Scope.ofByte b = some x) :
    resetRequest [b] s = done [] (s.withLink { s.link with resetScope := some x }) := by
  simp only [resetRequest, List.getD_cons_zero, h]

theorem resetRequest_none {b : Byte} {s : State} (h : Scope.ofByte b = none) :
    resetRequest [b] s = refuse .range s := by
  simp only [resetRequest, List.getD_cons_zero, h]

theorem resetAccepted_claim : Claims.ResetAccepted := by
  intro s b h
  refine ⟨fun x hx => ⟨?_, Bool.eq_false_iff.2 fun hc => ?_⟩, fun hx => ?_⟩
  · exact congrArg Host.Outcome.next (runRequest_done h rfl (resetRequest_some hx) rfl rfl)
  · simpa using canTake_noReset hc
  · exact congrArg Host.Outcome.next (runRequest_refused h rfl (resetRequest_none hx))

theorem resetWaitsForItsDone_claim : Claims.ResetWaitsForItsDone := by
  intro s
  refine ⟨fun h => congrArg Host.Outcome.next (if_pos h), fun h => congrArg Host.Outcome.next ?_⟩
  split
  · next x hx =>
    refine if_neg fun hr => ?_
    rcases h with h | h
    · cases h.symm.trans hx
    · exact Bool.false_ne_true (h.symm.trans hr)
  · rfl

/-- Settles O5. -/
theorem resetRequest_answers : Obligations.ResetRequest := ⟨resetAccepted_claim, resetWaitsForItsDone_claim⟩

theorem noticeRaised_claim : Claims.NoticeRaised := by
  intro n s
  refine ⟨fun he hn => congrArg s.withLink (if_pos ⟨he, hn⟩), fun h => congrArg s.withLink (if_neg fun ⟨he, hn⟩ => ?_)⟩
  rcases h with h | h
  · exact Bool.false_ne_true (h.symm.trans he)
  · exact hn h

/-- The tests that follow a new threshold: an armed store that falls short of it lists Store Low and disarms; one that
is not armed is armed by its re-arm level, which is not under the threshold (R11, R12). -/
theorem thresholdTests_eq {s : State} (h : s.store.threshold ≤ 8192) :
    storeLowTest (rearmTest s) =
      (if s.store.armed = true ∧ s.store.pool.length < s.store.threshold then raise .storeLow else id)
        (s.withStore { s.store with
          armed := if s.store.armed then decide (s.store.threshold ≤ s.store.pool.length)
            else decide (min (s.store.threshold + 64) 8192 ≤ s.store.pool.length) }) := by
  have self (b : Bool) (hb : s.store.armed = b) : s.withStore { s.store with armed := b } = s := by rw [← hb]; rfl
  cases ha : s.store.armed with
  | true =>
    have hr : rearmTest s = s := if_neg (by simp [ha])
    rw [hr]
    by_cases hl : s.store.pool.length < s.store.threshold
    · rw [if_pos ⟨rfl, hl⟩, if_pos rfl, decide_eq_false (Nat.not_le.2 hl)]
      exact if_pos ⟨ha, hl⟩
    · rw [if_neg fun e => hl e.2, if_pos rfl, decide_eq_true (Nat.not_lt.1 hl), id, self _ ha]
      exact if_neg fun e => hl e.2
  | false =>
    rw [if_neg (by simp), if_neg (by simp), id]
    by_cases hl : min (s.store.threshold + 64) 8192 ≤ s.store.pool.length
    · have hr : rearmTest s = s.withStore { s.store with armed := true } := if_pos ⟨by rw [ha]; rfl, hl⟩
      rw [hr, decide_eq_true hl]
      exact if_neg fun e => absurd e.2 (by simp only [State.withStore_store, TextStore.freeCount]; omega)
    · have hr : rearmTest s = s := if_neg fun e => hl e.2
      rw [hr, decide_eq_false hl, self _ ha]
      exact if_neg (by simp [ha])

theorem setNotices_claim : Claims.SetNotices := by
  intro s body h mask threshold free
  refine ⟨fun hr => congrArg Host.Outcome.next (runRequest_refused h rfl (if_pos hr)), fun hth hm => ?_⟩
  intro t
  have ha : setNotices body (s.withCause true) = done [] (storeLowTest (rearmTest
      (((s.withLink (s.link.setMask (BitVec.ofNat 16 mask))).withStore
        { s.store with threshold := threshold }).withCause true))) :=
    if_neg fun e => e.elim (Nat.not_lt.2 hth) (Nat.not_lt.2 hm)
  rw [thresholdTests_eq hth] at ha
  by_cases hl : s.store.armed = true ∧ free < threshold
  · have ha := ha.trans (congrArg (done []) (congrFun (if_pos hl) _))
    rw [if_pos hl]
    exact congrArg Host.Outcome.next (runRequest_done h rfl ha (by simp [t]) (by simp [t]))
  · have ha := ha.trans (congrArg (done []) (congrFun (if_neg hl) _))
    rw [if_neg hl]
    exact congrArg Host.Outcome.next (runRequest_done h rfl ha rfl rfl)

/-- Settles O11. -/
theorem noticeListAndMask : Obligations.NoticeListAndMask := ⟨noticeRaised_claim, setNotices_claim⟩

end Sys2Proof.Machine

namespace Sys2Proof.Machine

/-! ### The commands that execute the head request (R182, 11.4) -/

/-- The code of the request that a command executes. QUERY_PORT stands apart: it has a clearing to do too (log 42). -/
def requestKind : Instr → Option Byte
  | .openStory => some 0x10
  | .appendLine => some 0x11
  | .closeStoryCommit | .closeStoryAbandon => some 0x12
  | .freeStory => some 0x13
  | .setStory => some 0x14
  | .queryStory => some 0x15
  | .queryStore => some 0x16
  | .placeEntry => some 0x20
  | .moveEntry => some 0x21
  | .removeEntry => some 0x22
  | .floatEntry => some 0x23
  | .queryOrder => some 0x24
  | .insertLine => some 0x28
  | .replaceLine => some 0x29
  | .deleteLines => some 0x2A
  | .readLine => some 0x2B
  | .queryFault => some 0x2C
  | .clearFault => some 0x2D
  | .run => some 0x30
  | .stop => some 0x31
  | .halt => some 0x32
  | .step => some 0x33
  | .goTo => some 0x34
  | .setSpeed => some 0x35
  | .setMotion => some 0x36
  | .setPreview => some 0x37
  | .queryMotion => some 0x38
  | .setDriveMode => some 0x40
  | .setPortClass => some 0x41
  | .pinDrive => some 0x42
  | .claimDrive => some 0x43
  | .releaseDrive => some 0x44
  | .queryDrive => some 0x45
  | .enablePort => some 0x48
  | .disablePort => some 0x49
  | .resetPort => some 0x4A
  | .setPort => some 0x4B
  | .setLamp => some 0x4C
  | .queryCues => some 0x50
  | .skipCue => some 0x51
  | .setTimer => some 0x52
  | .startTimer => some 0x53
  | .stopTimer => some 0x54
  | .queryTimers => some 0x55
  | .setFrame => some 0x58
  | .setReference => some 0x59
  | .queryFrame => some 0x5A
  | .setHead => some 0x60
  | .queryHead => some 0x61
  | .identify => some 0x70
  | .setNotices => some 0x71
  | .reset => some 0x72
  | _ => none

/-- A command that executes the head request: the one meant has the command's code, and is executed by that command. -/
def Executes (c : Instr) (k : Byte) : Prop :=
  ∃ meant owner, (∀ s, exec c s = .next (runRequestIf meant owner s)) ∧
    ∀ r, meant r = true ↔ r.kind = k ∧ requestCommand r = c

/-- One code, one command. -/
theorem executes_runRequest {c : Instr} {k : Byte} {owner : List Byte → State → Answer}
    (he : ∀ s, exec c s = .next (runRequest k.toNat owner s))
    (hc : ∀ body busy, requestCommand { kind := k, body := body, busy := busy } = c) : Executes c k := by
  refine ⟨_, owner, he, fun r => ⟨fun h => ?_, fun h => decide_eq_true (congrArg _ h.1)⟩⟩
  have hk : r.kind = k := BitVec.eq_of_toNat_eq (of_decide_eq_true h)
  exact ⟨hk, by rw [← hc r.body r.busy, ← hk]⟩

/-- A Close Story is a command's by its body (log 25). -/
theorem executes_closeStory {c : Instr} {owner : List Byte → State → Answer} {which : List Byte → Prop}
    [DecidablePred which] (he : ∀ s, exec c s = .next (runRequestIf (fun r => r.kind = 0x12 ∧ which r.body) owner s))
    (hc : ∀ body busy, requestCommand { kind := 0x12, body := body, busy := busy } = c ↔ which body) :
    Executes c 0x12 := by
  refine ⟨_, owner, he, fun r => decide_eq_true_iff.trans (and_congr_right fun hk => ?_)⟩
  rw [← hc r.body r.busy, ← hk]

theorem requestCommand_closeStory (body : List Byte) (busy : List Reply) :
    requestCommand { kind := 0x12, body := body, busy := busy } =
      if body = [1] then .closeStoryAbandon else .closeStoryCommit := rfl

theorem exec_request {c : Instr} {k : Byte} (h : requestKind c = some k) : Executes c k := by
  cases c
  all_goals cases h
  case closeStoryCommit =>
    refine executes_closeStory (which := fun b => b ≠ [1]) (fun _ => rfl) fun body busy => ?_
    rw [requestCommand_closeStory]
    split
    · next e => exact ⟨nofun, fun n => absurd e n⟩
    · next e => exact ⟨fun _ => e, fun _ => rfl⟩
  case closeStoryAbandon =>
    refine executes_closeStory (which := fun b => b = [1]) (fun _ => rfl) fun body busy => ?_
    rw [requestCommand_closeStory]
    split
    · next e => exact ⟨fun _ => e, fun _ => rfl⟩
    · next e => exact ⟨nofun, fun n => absurd n e⟩
  all_goals exact executes_runRequest (fun _ => rfl) fun _ _ => rfl

/-- A request of the part is executed by a command that has its code, or it is a Query Port (11.4). -/
theorem requestKind_requestCommand {r : Request} (h : knownRequest r.kind = true) :
    requestKind (requestCommand r) = some r.kind ∨ r.kind = 0x4D ∧ requestCommand r = .queryPort := by
  have hk {n : Nat} (hn : r.kind.toNat = n) : BitVec.ofNat 8 n = r.kind := by
    rw [← hn, BitVec.ofNat_toNat, BitVec.setWidth_eq]
  unfold requestCommand
  split
  case h_3 hn => exact .inl (by split <;> exact congrArg some (hk hn))
  case h_39 hn => exact .inr ⟨(hk hn).symm, rfl⟩
  case h_54 =>
    unfold knownRequest requestLength at h
    split at h
    all_goals contradiction
  all_goals next hn => exact .inl (congrArg some (hk hn))

/-! ### Unknown and Malformed (R182, R188) -/

/-- A refusal's reply, with the Busy replies attached: no scope stands while a request is taken, so it is no Reset's
Done. -/
theorem refused_eq {s : State} {r : Request} {rest : List Request} (hr : s.link.requests = r :: rest)
    (ht : s.canTake = true) (x : Status) : refused s x = sendIfIdle { s with
      cause := false
      link := { s.link with
        requests := rest
        replies := s.link.replies ++
          { kind := replyKind r.kind, body := [x.code], isReset := false } :: r.busy } } := by
  simp only [refused, answered, replied, placed, hr, canTake_noReset ht, List.tail_cons, Option.isSome_none]

theorem exec_unknownRequest {s : State} {r : Request} {rest : List Request} (hr : s.link.requests = r :: rest)
    (ht : s.canTake = true) (hk : knownRequest r.kind = false) :
    exec .unknownRequest s = .next (refused s .unknown) := by
  refine congrArg Host.Outcome.next ?_
  simp only [hr, hk, ht, Bool.not_false, Bool.and_self, if_true]
  simp only [refused, answered, replied, placed, hr, event, placeReply, Answer.reply, refuse, State.withLink,
    State.withCause, Status.code]
  rfl

theorem exec_malformed {s : State} {r : Request} {rest : List Request} (hr : s.link.requests = r :: rest)
    (ht : s.canTake = true) (hk : knownRequest r.kind = true)
    (hl : requestLength r.kind.toNat r.body ≠ some r.body.length) :
    exec (requestCommand r) s = .next (refused s .malformed) := by
  obtain hc | ⟨hq, hc⟩ := requestKind_requestCommand hk
  · obtain ⟨meant, owner, he, hm⟩ := exec_request hc
    rw [he, runRequestIf_malformed hr ((hm r).2 ⟨rfl, rfl⟩) ht hl]
  · rw [hc]
    exact (execQueryPort_request (acknowledging_of_canTake ht)).trans
      (congrArg Host.Outcome.next (runRequestIf_malformed hr (by rw [hq]; rfl) ht hl))

/-- Settles O9: each is a refusal, whose reply is its only change. -/
theorem unknownAndMalformed : Obligations.UnknownAndMalformed := by
  intro s r rest hr ht
  refine ⟨fun hk => ?_, fun hk hl => ?_⟩
  · rw [exec_unknownRequest hr ht hk, refused_eq hr ht, replyKind, if_neg (by rw [hk]; nofun)]
    rfl
  · rw [exec_malformed hr ht hk hl, refused_eq hr ht, replyKind, if_pos hk]
    rfl

/-! ### An event that is not ready (logs 1, 25 and 42) -/

section notReady
variable {s : State}

/-- A request's command finds another request at the head, or none that can be taken. -/
theorem exec_request_waits {c : Instr} {k : Byte} (hc : requestKind c = some k)
    (h : s.canTake = false ∨ ∀ r, s.link.requests.head? = some r → r.kind = k → requestCommand r ≠ c) :
    exec c s = .next s := by
  obtain ⟨meant, owner, he, hm⟩ := exec_request hc
  rw [he]
  refine congrArg Host.Outcome.next (runRequestIf_waits fun r rest hr => ?_)
  refine Bool.eq_false_iff.2 fun hb => ?_
  obtain ⟨hmr, ht⟩ := Bool.and_eq_true_iff.1 hb
  obtain ⟨hk, hcr⟩ := (hm r).1 hmr
  rcases h with h | h
  · exact Bool.false_ne_true (h.symm.trans ht)
  · exact h r (by rw [hr]; rfl) hk hcr

theorem exec_unknownRequest_waits
    (h : s.canTake = false ∨ ∀ r, s.link.requests.head? = some r → knownRequest r.kind = true) :
    exec .unknownRequest s = .next s := by
  refine congrArg Host.Outcome.next ?_
  split
  · rfl
  · next r rest hr =>
    refine if_neg fun hb => ?_
    obtain ⟨hk, ht⟩ := Bool.and_eq_true_iff.1 hb
    rcases h with h | h
    · exact Bool.false_ne_true (h.symm.trans ht)
    · rw [h r (by rw [hr]; rfl)] at hk
      exact Bool.false_ne_true hk

theorem exec_queryPort_waits (ha : ∀ p : PortNo, s.ports[p].ackDue = none)
    (h : s.canTake = false ∨ ∀ r, s.link.requests.head? = some r → r.kind ≠ 0x4D) : exec .queryPort s = .next s := by
  have hn : s.acknowledging = false := Bool.eq_false_iff.2 fun e => by
    obtain ⟨p, hp⟩ := acknowledging_iff.1 e
    exact hp (ha p)
  refine (execQueryPort_request hn).trans (congrArg Host.Outcome.next (runRequestIf_waits fun r rest hr => ?_))
  rcases h with h | h
  · rw [h, Bool.and_false]
  · refine Bool.and_eq_false_imp.2 fun hk => absurd ?_ (h r (by rw [hr]; rfl))
    exact BitVec.eq_of_toNat_eq (of_decide_eq_true hk)

/-- No message, or another kind's at the head of the channel. -/
theorem takeHead_waits {α β : Type} {c : List (Msg α)} {want : α → Option β} {drop : List (Msg α) → State → State}
    {f : β → State → State} (h : ∀ m, c.head? = some m → want m.body = none) : takeHead c want drop f s = s := by
  cases c with
  | nil => rfl
  | cons m rest => exact takeHead_none (h m rfl)

theorem takeReportIf_waits {want : ScriptReport → Bool}
    (h : ∀ m, s.mail.engineReports.head? = some m → want m.body = false) : takeReportIf want s = s :=
  takeHead_waits fun m hm => if_neg (by rw [h m hm]; nofun)

/-- The five commands that take a script-change report, each its own kind. -/
theorem exec_report_waits {c : Instr} (hc : c ∈ [Instr.insertReport, .deleteReport, .storyIneligibleReport,
      .storyEligibleReport, .orderChangedReport])
    (h : ∀ m, s.mail.engineReports.head? = some m → reportCommand m.body ≠ c) : exec c s = .next s := by
  have waits {want : ScriptReport → Bool} (hw : ∀ r, reportCommand r ≠ c → want r = false) :
      ran (takeReportIf want s) = .next s :=
    congrArg Host.Outcome.next (takeReportIf_waits fun m hm => hw _ (h m hm))
  simp only [List.mem_cons, List.not_mem_nil, or_false] at hc
  obtain rfl | rfl | rfl | rfl | rfl := hc
  all_goals exact waits fun r n => by cases r <;> simp_all [reportCommand]

/-- The Close Story that a command does not execute (log 25). -/
theorem exec_closeStory_waits {r : Request} (hr : s.link.requests.head? = some r) (hk : r.kind = 0x12) :
    (r.body = [1] → exec .closeStoryCommit s = .next s) ∧ (r.body ≠ [1] → exec .closeStoryAbandon s = .next s) := by
  have hc : requestCommand r = if r.body = [1] then .closeStoryAbandon else .closeStoryCommit := by
    rw [← requestCommand_closeStory r.body r.busy, ← hk]
  refine ⟨fun hb => exec_request_waits (k := 0x12) rfl (.inr fun x hx _ => ?_),
    fun hb => exec_request_waits (k := 0x12) rfl (.inr fun x hx _ => ?_)⟩
  all_goals
    cases hr.symm.trans hx
    rw [hc]
  · rw [if_pos hb]; nofun
  · rw [if_neg hb]; nofun

end notReady

theorem notReady_claim : Claims.NotReadyChangesNothing := by
  intro s rows report
  have hrows : ∀ x ∈ rows, requestKind x.2 = some x.1 ∧ knownRequest x.1 = true := by
    simp only [rows]
    decide
  have waits {α β : Type} {c : List (Msg α)} {want : α → Option β} {drop : List (Msg α) → State → State}
      {f : β → State → State} (h : ∀ m, c.head? = some m → want m.body = none) :
      ran (takeHead c want drop f s) = .next s := congrArg Host.Outcome.next (takeHead_waits h)
  have none_waits {α β : Type} {c : List (Msg α)} {want : α → Option β} {drop : List (Msg α) → State → State}
      {f : β → State → State} (h : c = []) : ran (takeHead c want drop f s) = .next s :=
    waits fun m hm => by rw [h] at hm; cases hm
  refine ⟨fun x hx h => ?_, fun r hr => ⟨fun hk => ?_, fun hk => ?_, fun hk => ?_⟩, fun h => ?_, fun ha h => ?_,
    fun c hc h => ?_, fun h => ?_, fun h => ?_, fun h => ?_, fun h => ?_,
    none_waits, none_waits, none_waits, none_waits, fun h => ?_, fun h => ?_, fun h => ?_,
    fun p => ⟨fun x hx h => ?_, fun h => ?_, none_waits, fun h => ?_, fun h => ?_⟩,
    fun k => ⟨none_waits, fun h => ?_, fun h => ?_⟩⟩
  · exact exec_request_waits (hrows x hx).1 (h.imp_right fun h r hr hk => absurd hk (h r hr))
  · exact (exec_closeStory_waits hr hk).1
  · exact (exec_closeStory_waits hr hk).2
  · refine exec_unknownRequest_waits (.inr fun x hx => ?_)
    cases hr.symm.trans hx
    obtain hk | ⟨y, hy, hk⟩ := hk
    · rw [hk]; rfl
    · rw [hk]; exact (hrows y hy).2
  · exact exec_unknownRequest_waits (.inl h)
  · exact exec_queryPort_waits ha h
  · exact exec_report_waits hc fun m hm e => h m hm (e ▸ by cases m.body <;> rfl)
  · refine waits fun m hm => ?_
    cases hb : m.body with
    | report r => exact absurd hb (h m hm r)
    | rewritten k b => rfl
  · refine waits fun m hm => ?_
    cases hb : m.body with
    | report r => rfl
    | rewritten k b => exact absurd hb (h m hm k b)
  · refine waits fun m hm => ?_
    cases hb : m.body with
    | designation k => exact absurd hb (h m hm k)
    | airFrame k => rfl
  · refine waits fun m hm => ?_
    cases hb : m.body with
    | designation k => rfl
    | airFrame k => exact absurd hb (h m hm k)
  · refine waits fun m hm => ?_
    cases hb : m.body with
    | setTarget v => exact absurd hb (h m hm v)
    | key | jog d => rfl
  · refine waits fun m hm => ?_
    cases hb : m.body with
    | key => exact absurd hb (h m hm)
    | setTarget v | jog d => rfl
  · refine waits fun m hm => ?_
    cases hb : m.body with
    | jog d => exact absurd hb (h m hm d)
    | setTarget v | key => rfl
  · have other {y : PortMsg} (hy : ∀ m, s.mail.toArbiter[p].head? = some m → m.body ≠ y) {f : Unit → State → State} :
        ran (takePortMsg p (PortMsg.isMsg y) f s) = .next s := waits fun m hm => if_neg (hy m hm)
    simp only [List.mem_cons, List.not_mem_nil, or_false] at hx
    obtain rfl | rfl | rfl | rfl := hx
    all_goals exact other h
  · refine waits fun m hm => ?_
    have hb := h m hm
    simp only [List.mem_cons, List.not_mem_nil, or_false] at hb
    obtain hb | hb | hb | hb := hb
    all_goals rw [hb]; rfl
  · exact waits fun m hm => by rw [h m hm]; rfl
  · exact waits fun m hm => by rw [h m hm]; rfl
  · exact waits fun m hm => by rw [h m hm]; rfl
  · exact waits fun m hm => by rw [h m hm]; rfl

/-- Settles O2. -/
theorem idleStep : Obligations.IdleStep := ⟨emptyQueue_claim, notReady_claim⟩

end Sys2Proof.Machine

namespace Sys2Proof.Machine

end Sys2Proof.Machine

namespace Sys2Proof.Machine

/-! ### The characters of the host link (R179 to R181) -/

section hostChars
variable {s : State} {r r' : RxState} {c : LineChar} {kind : Byte} {body : List Byte}

/-- The part once the host receiver has come to a state at the present moment. -/
def State.hears (s : State) (r : RxState) : State :=
  s.withLink { s.link with rx := { state := r, lastAt := s.now } }

theorem hears_state (s : State) (r : RxState) : (s.hears r).link.rx.state = r := rfl

@[simp] theorem hears_hears (s : State) (r r' : RxState) : (s.hears r).hears r' = s.hears r' := rfl

theorem hostChar_hears (hx : s.link.rx.state = r) (hc : rxTake r c = (r', .quiet)) : hostChar s c = s.hears r' := by
  simp only [hostChar, hx, hc]
  rfl

theorem hostChar_faults (hx : s.link.rx.state = r) {e : LinkErrorCause} (hc : rxTake r c = (r', .fault e)) :
    hostChar s c = linkFault e (s.hears r') := by
  simp only [hostChar, hx, hc]
  rfl

theorem hostChar_ends (hx : s.link.rx.state = r) (hc : rxTake r c = (r', .frame kind body)) :
    hostChar s c = offerFrame kind body (s.hears r') := by
  simp only [hostChar, hx, hc]
  rfl

/-- A hunting receiver has no frame that could be late. -/
theorem hostGap_hunting (hx : s.link.rx.state = .hunting) : hostGap s = s :=
  if_neg (by simp [LinkRx.timedOut, hx])

theorem timedOut_iff (x : LinkRx) (now : Nat) : x.timedOut now = true ↔ x.state ≠ .hunting ∧ x.lastAt + 5000 < now := by
  rw [LinkRx.timedOut, Bool.and_eq_true_iff, decide_eq_true_iff, decide_eq_true_iff]
  rfl

/-- A frame under way whose next character is in time. -/
theorem hostGap_inTime (h : s.link.rx.state = .hunting ∨ s.now ≤ s.link.rx.lastAt + 5000) : hostGap s = s := by
  refine if_neg fun ht => ?_
  obtain ⟨hr, hl⟩ := (timedOut_iff _ _).1 ht
  exact h.elim hr (Nat.not_le.2 hl)

/-! What the receiver makes of a character (R179) -/

theorem rxTake_start : rxTake .hunting { byte := 0xA5, stop := true } = (.length, .quiet) := rfl

theorem rxTake_noStart (h : c.stop = false ∨ c.byte ≠ 0xA5) : rxTake .hunting c = (.hunting, .quiet) :=
  if_neg fun ⟨hs, hb⟩ => h.elim (fun e => Bool.false_ne_true (e.symm.trans hs)) fun e => e hb

theorem rxTake_badLength {n : Byte} (h : n = 0 ∨ 200 < n.toNat) :
    rxTake .length { byte := n, stop := true } = (.hunting, .fault .length) := if_pos h

theorem rxTake_length {n : Nat} (h : 0 < n) (hn : n ≤ 200) :
    rxTake .length { byte := byte n, stop := true } = (.collecting n [], .quiet) := by
  have hb : (byte n).toNat = n := by rw [byte, BitVec.toNat_ofNat, Nat.mod_eq_of_lt (by omega)]
  simp only [rxTake, Bool.not_true, Bool.false_eq_true, if_false, hb]
  exact if_neg fun e => e.elim (fun e => by rw [e] at hb; simp at hb; omega) (by omega)

theorem rxTake_collect {n : Nat} {got : List Byte} {b : Byte} (h : got.length < n) :
    rxTake (.collecting n got) { byte := b, stop := true } = (.collecting n (got ++ [b]), .quiet) := by
  simp [rxTake, h]

theorem rxTake_check (n : Nat) (body : List Byte) (check : Byte) (h : (kind :: body).length = n) :
    rxTake (.collecting n (kind :: body)) { byte := check, stop := true } =
      (.hunting, if crc8 (byte n :: kind :: body) = check then .frame kind body else .fault .check) := by
  simp only [rxTake, Bool.not_true, Bool.false_eq_true, if_false, h, Nat.lt_irrefl, List.headD_cons, List.tail_cons]
  split <;> rfl

theorem rxTake_noStop (hr : r ≠ .hunting) (hs : c.stop = false) : rxTake r c = (.hunting, .fault .stopBit) := by
  cases r with
  | hunting => exact absurd rfl hr
  | length | collecting => simp [rxTake, hs]

/-- The kind and body of a frame, byte after byte. -/
theorem foldl_hostChar_collects {n : Nat} : ∀ (bs got : List Byte), got.length + bs.length ≤ n →
    (goodChars bs).foldl hostChar (s.hears (.collecting n got)) = s.hears (.collecting n (got ++ bs))
  | [], got, _ => by rw [List.append_nil]; rfl
  | b :: bs, got, hn => by
    rw [List.length_cons] at hn
    have ih := foldl_hostChar_collects (n := n) bs (got ++ [b]) (by
      rw [List.length_append, List.length_singleton]
      omega)
    rw [List.append_assoc, List.singleton_append] at ih
    have hb : hostChar (s.hears (.collecting n got)) { byte := b, stop := true } =
        s.hears (.collecting n (got ++ [b])) :=
      hostChar_hears (hears_state _ _) (rxTake_collect (by omega))
    rw [← ih, ← hb]
    rfl

/-- A frame that a hunting receiver meets, up to its check byte. -/
theorem hostChars_frame (hx : s.link.rx.state = .hunting) (hlen : body.length ≤ 199) (check : Byte) :
    hostChars (goodChars (0xA5 :: byte (body.length + 1) :: kind :: body ++ [check])) s =
      if crc8 (byte (body.length + 1) :: kind :: body) = check then offerFrame kind body (s.hears .hunting)
      else linkFault .check (s.hears .hunting) := by
  have hsplit : goodChars (0xA5 :: byte (body.length + 1) :: kind :: body ++ [check]) =
      { byte := 0xA5, stop := true } :: { byte := byte (body.length + 1), stop := true } ::
        (goodChars (kind :: body) ++ [{ byte := check, stop := true }]) := by
    simp [goodChars]
  have hcheck := rxTake_check (body.length + 1) body check (kind := kind) rfl
  rw [hostChars, hostGap_hunting hx, hsplit, List.foldl_cons, hostChar_hears hx rxTake_start, List.foldl_cons,
    hostChar_hears (hears_state _ _) (rxTake_length (Nat.succ_pos _) (by omega)), hears_hears, List.foldl_append,
    foldl_hostChar_collects _ _ (by simp), List.nil_append, List.foldl_cons, List.foldl_nil]
  split
  case isTrue hk =>
    rw [if_pos hk] at hcheck
    rw [hostChar_ends (hears_state _ _) hcheck, hears_hears]
  case isFalse hk =>
    rw [if_neg hk] at hcheck
    rw [hostChar_faults (hears_state _ _) hcheck, hears_hears]

end hostChars

/-- The transmitter's turn leaves the receiver as it is. -/
@[simp] theorem sendIfIdle_rx (s : State) : (sendIfIdle s).link.rx = s.link.rx := by
  have h := congrArg LinkController.rx (sendIfIdle_link s)
  exact h

@[simp] theorem linkFaulted_rx (s : State) (e : LinkErrorCause) :
    (linkFaulted s e).link.rx = { state := .hunting, lastAt := s.now } := LinkController.raise_rx _ _

/-! ### A frame received (R181) -/

section received
variable {s t : State} {e : LinkErrorCause}

/-- The event of a link fault: the raise and the transmitter's turn, which is the event's own (R183). -/
theorem event_linkFault {f : State → State} (hf : f (s.withCause false) = linkFault e (t.withCause false)) :
    event false f s = sendIfIdle (raise .linkFault
      ((t.withLink { t.link with lastError := some (e, t.clock.counter) }).withCause false)) := by
  rw [event, hf, linkFault, ← sendIfIdle_withCause, sendIfIdle_twice]
  rfl

theorem attachBusy_concat (x : Reply) (last : Request) : ∀ front : List Request,
    attachBusy x (front ++ [last]) = front ++ [{ last with busy := last.busy ++ [x] }]
  | [] => rfl
  | [_] => rfl
  | r :: q :: front => congrArg (r :: ·) (attachBusy_concat x last (q :: front))

/-- Settles O7: the characters of the frame one after another, then the queue's answer to it. -/
theorem hostFrameReceived : Obligations.HostFrameReceived := by
  intro s kind body hx hlen chars rx
  have hf : hostChars chars (s.withCause false) = offerFrame kind body ((s.withCause false).hears .hunting) :=
    (hostChars_frame (s := s.withCause false) hx hlen _).trans (if_pos rfl)
  have taken {u : State} (hu : offerFrame kind body ((s.withCause false).hears .hunting) = u.withCause false) :
      exec (.checkedFrame chars) s = .next (sendIfIdle (u.withCause false)) := by
    refine congrArg Host.Outcome.next ?_
    rw [event, hf, hu]
    rfl
  refine ⟨fun hr => ?_, fun front last hr hfull hb => ?_, fun hfull hb => ?_⟩
  · exact taken (u := s.withLink { s.link with
      rx := rx, requests := s.link.requests ++ [{ kind := kind, body := body, busy := [] }] }) (if_pos hr)
  · refine taken (u := s.withLink { s.link with
      rx := rx
      requests := front ++ [{ last with
        busy := last.busy ++ [{ kind := replyKind kind, body := [8], isReset := false }] }] })
      ((if_neg (Nat.not_lt.2 hfull)).trans ((if_pos hb).trans ?_))
    show State.withLink _ { s.link with rx := rx, requests := attachBusy (busyReply kind) s.link.requests } = _
    rw [hr, attachBusy_concat]
    rfl
  · have ho : offerFrame kind body ((s.withCause false).hears .hunting) =
        linkFault .overrun ((s.hears .hunting).withCause false) :=
      (if_neg (Nat.not_lt.2 hfull)).trans (if_neg (Nat.not_lt.2 hb))
    exact congrArg Host.Outcome.next (event_linkFault (hf.trans ho))

/-- The fault that a receiver meets at the present moment, in the words of the statements (R180). -/
theorem event_receiveFault {cs : List LineChar}
    (hf : hostChars cs (s.withCause false) = linkFault e ((s.withCause false).hears .hunting)) :
    exec (.receiveFault cs) s = .next (sendIfIdle (linkFaulted s e)) :=
  congrArg Host.Outcome.next (event_linkFault (t := s.hears .hunting) hf)

/-- A start byte and a length byte out of range, met hunting (R180). -/
theorem foldl_hostChar_badLength {n : Byte} (hx : s.link.rx.state = .hunting) (hn : n = 0 ∨ 200 < n.toNat)
    (rest : List LineChar) : (goodChars [0xA5, n] ++ rest).foldl hostChar s =
      rest.foldl hostChar (linkFault .length (s.hears .hunting)) := by
  show rest.foldl hostChar (hostChar (hostChar s _) _) = _
  rw [hostChar_hears hx rxTake_start, hostChar_faults (hears_state _ _) (rxTake_badLength hn), hears_hears]

theorem hostChars_badLength {n : Byte} (hx : s.link.rx.state = .hunting) (hn : n = 0 ∨ 200 < n.toNat)
    (rest : List LineChar) : hostChars (goodChars [0xA5, n] ++ rest) s =
      rest.foldl hostChar (linkFault .length (s.hears .hunting)) := by
  rw [hostChars, hostGap_hunting hx, foldl_hostChar_badLength hx hn]

/-- Settles O8: the character that brings each fault, at a receiver that stands as the statement says. -/
theorem receiveFaults : Obligations.ReceiveFaults := by
  intro s
  refine ⟨fun c hx hc => ?_, fun n hx hn => ?_, fun m n hx hm hn => ?_, fun kind body check hx hlen hk => ?_,
    fun b hx hl => ?_, fun hx hl => ?_, fun h => ?_⟩
  · have hf : hostChars [c] (s.withCause false) = (s.withCause false).hears .hunting := by
      show hostChar (hostGap (s.withCause false)) c = _
      rw [hostGap_hunting (s := s.withCause false) hx]
      exact hostChar_hears hx (rxTake_noStart hc)
    refine congrArg Host.Outcome.next ?_
    rw [event, hf]
    rfl
  · exact event_receiveFault (hostChars_badLength (s := s.withCause false) hx hn [])
  · have h1 : linkFault .length ((s.withCause false).hears .hunting) =
        (sendIfIdle (linkFaulted s .length)).withCause false := by
      rw [← sendIfIdle_withCause]
      rfl
    have hx1 : (sendIfIdle (linkFaulted s .length)).link.rx.state = .hunting := by rw [sendIfIdle_rx, linkFaulted_rx]
    generalize sendIfIdle (linkFaulted s .length) = v at h1 hx1 ⊢
    refine congrArg Host.Outcome.next (event_linkFault (t := v.hears .hunting) ?_)
    refine (hostChars_badLength (s := s.withCause false) hx hm (goodChars [0xA5, n])).trans ?_
    rw [h1]
    exact foldl_hostChar_badLength (s := v.withCause false) hx1 hn []
  · exact event_receiveFault ((hostChars_frame (s := s.withCause false) hx hlen check).trans (if_neg (Ne.symm hk)))
  · refine event_receiveFault ?_
    show hostChar (hostGap (s.withCause false)) _ = _
    rw [hostGap_inTime (s := s.withCause false) (.inr hl)]
    exact hostChar_faults rfl (rxTake_noStop hx rfl)
  · refine congrArg Host.Outcome.next (event_linkFault
      (t := s.withLink { s.link with rx := { s.link.rx with state := .hunting } })
      (if_pos ((timedOut_iff _ _).2 ⟨hx, hl⟩)))
  · refine congrArg Host.Outcome.next ?_
    rw [event, hostGap_inTime (s := s.withCause false) h]
    rfl

end received

end Sys2Proof.Machine

namespace Sys2Proof.Machine

/-! ### The transmitter's choice, and its turn at the end of a step (R183) -/

section transmit
variable {s : State}

theorem sendNotice_eq (n : Notice) (rest : List Notice) (s : State) : sendNotice n rest s = { s with
    link := { s.link with
      sending := some { kind := n.code, body := noticeBody n s, isReset := false }, notices := rest }
    cues := if n = .timerExpired then { s.cues with expired := 0 } else s.cues } := by
  cases n <;> rfl

theorem transmitterChoice_claim : Claims.TransmitterChoice := by
  intro s
  refine ⟨fun r rest hr => ?_, fun n rest hr hn => ?_, fun hr hn => ?_, fun h => ?_⟩
  · simp only [transmitNext, hr]; rfl
  · have ht : transmitNext s = sendNotice n rest s := by simp only [transmitNext, hr, hn]
    exact ht.trans (sendNotice_eq n rest s)
  · simp only [transmitNext, hr, hn]; rfl
  · refine congrArg Host.Outcome.next ((if_neg (by rw [h]; nofun)).trans ?_)
    exact event_transmitNext s

/-- A Halt that stops a moving scroll, served while the transmitter waits: its Scroll Halted is listed before its Done
is placed (R69, R80, R182). -/
theorem haltSent (h : Serving s 0x32 []) (hs : s.link.sending = none) (hn : s.link.notices = [])
    (hr : s.link.replies = []) (hm : s.engine.motion ≠ .halted)
    (he : (Notice.scrollHalted).enabledBy s.link.mask = true) :
    ∃ t, exec .halt s = .next t ∧ t.link.notices = [] ∧ t.link.replies = placed s .done [] false ∧
      t.link.sending = some { kind := 0xE0, isReset := false, body := 1 :: twoOf s.clock.counter ++
        (match s.engine.live with
         | some p => 1 :: placeBytes s.script p.block ++ [byte p.sub]
         | none => [0, 0, 0, 0, 0]) } := by
  refine ⟨_, (haltRequest s h).2 hm, ?_⟩
  have hl : s.link.raise .scrollHalted = { s.link with notices := [.scrollHalted] } := by
    rw [LinkController.raise, if_pos ⟨he, by simp [hn]⟩, hn]
    rfl
  rw [answered, sendIfIdle_notice (n := .scrollHalted) (rest := []) (by simpa using hs) (by simp [hl]), sendNotice_eq]
  refine ⟨rfl, ?_, rfl⟩
  simp [hr, canTake_noReset h.taken]

theorem sentAtOnce_claim : Claims.SentAtOnce := by
  intro s
  refine ⟨sendIfIdle_busy, fun hs => ⟨fun n rest hn => ?_, fun r rest hn hr => ?_, sendIfIdle_empty⟩, haltSent⟩
  · rw [sendIfIdle_notice hs hn, sendNotice_eq]
  · rw [sendIfIdle_reply hs hn hr]; rfl

end transmit

/-! ### The notice bodies (11.5) -/

theorem toList_four {α : Type} (v : Vector α 4) : v.toList = [v[0], v[1], v[2], v[3]] := by
  refine List.ext_getElem v.length_toList fun i _ hi => ?_
  match i, hi with
  | 0, _ | 1, _ | 2, _ | 3, _ => rfl

/-- The holder's class as a byte (R126, R188). -/
theorem holderClassCode_eq (a : Arbiter) : holderClassCode a.holderClass = match a.holder with
    | some (.port p) => (match a.classes[p] with | .operator => 0 | .presenter => 1)
    | some .desk => 2
    | none => 0xFF := by
  unfold Arbiter.holderClass
  cases a.holder with
  | none => rfl
  | some x =>
    cases x with
    | desk => rfl
    | port p =>
      dsimp only
      cases a.classes[p] <;> rfl

/-- The set of heads UP, bit by bit (R164). -/
theorem headsUp_eq (s : State) : headsUp s =
    byte (s.heads[0].up.toNat + 2 * s.heads[1].up.toNat + 4 * s.heads[2].up.toNat + 8 * s.heads[3].up.toNat) := by
  have bit (b : Bool) (n : Nat) : (if b then n else 0) = n * b.toNat := by cases b <;> simp
  have four : List.finRange 4 = [0, 1, 2, 3] := rfl
  simp only [headsUp, four, bit, List.map_cons, List.map_nil, List.sum_cons, List.sum_nil]
  show byte (1 * s.heads[0].up.toNat + (2 * s.heads[1].up.toNat + (4 * s.heads[2].up.toNat +
    (8 * s.heads[3].up.toNat + 0)))) = _
  congr 1
  omega

/-- Each body is its owner's as the model reads it; what is written otherwise there is the subject of one of the lemmas
above. -/
theorem noticeBodies_claim : Claims.NoticeBodies := by
  intro s a waiting places slot
  refine ⟨⟨rfl, rfl⟩, ⟨rfl, ?_⟩, ⟨rfl, ?_⟩, ⟨rfl, rfl⟩, ⟨rfl, rfl⟩, ⟨rfl, rfl⟩, ⟨rfl, rfl⟩, ⟨rfl, rfl⟩, ⟨rfl, rfl⟩,
    ⟨rfl, rfl⟩, ⟨rfl, rfl⟩, ⟨rfl, linkErrorBytes_eq _⟩, ⟨rfl, congrArg (fun x => [x]) (headsUp_eq s)⟩⟩
  · exact congrArg (fun x => [sourceCode a.holder, x, a.mode.code, portByte a.pin] ++ a.waitingBytes)
      (holderClassCode_eq a)
  · show s.ports.toList.flatMap Port.changedBytes = _
    rw [toList_four]
    rfl

end Sys2Proof.Machine

namespace Sys2Proof.Machine

/-! ### A step that comes before another (R183; logs 8, 10 and 41)

Each such step ends with the transmitter's turn, its own command's too, so that the part it leaves is the one in
which the other's own work begins. -/

theorem withCause_of_cause {s : State} {b : Bool} (h : s.cause = b) : s.withCause b = s := by rw [← h]; rfl

/-- A step that is one event of its own: the event's mark and the transmitter's turn add nothing to work that has ended
with that turn. -/
theorem event_of_waits {s : State} {f : State → State} (hc : (f (s.withCause false)).cause = false)
    (hw : (f (s.withCause false)).Waits) : event false f s = f (s.withCause false) := by
  rw [event, withCause_of_cause hc, sendIfIdle_waits hw]

section chars
variable {s t : State}

/-! The characters of one command after those before them (R179, R180) -/

theorem linkFault_waits (e : LinkErrorCause) : (linkFault e s).Waits := sendIfIdle_idle _

/-- After a character the receiver has met one at the present moment, the mark of the event is as before, and a
transmitter that waits waits for want of a frame. -/
structure Heard (s t : State) : Prop where
  cause : t.cause = s.cause
  inTime : t.now = t.link.rx.lastAt
  waits : s.Waits → t.Waits

theorem heard_linkFault (e : LinkErrorCause) (h : t.now = t.link.rx.lastAt) : Heard t (linkFault e t) := by
  refine ⟨sendIfIdle_cause _, ?_, fun _ => linkFault_waits e⟩
  rw [linkFault, sendIfIdle_now, sendIfIdle_rx, raise_link, LinkController.raise_rx]
  exact h

theorem heard_hostChar (s : State) (c : LineChar) : Heard s (hostChar s c) := by
  unfold hostChar offerFrame
  dsimp only
  have fault (x : LinkRx) (hx : s.now = x.lastAt) (e : LinkErrorCause) :
      Heard s (linkFault e (s.withLink { s.link with rx := x })) :=
    have h := heard_linkFault (t := s.withLink { s.link with rx := x }) e hx
    ⟨h.cause, h.inTime, h.waits⟩
  split
  · split
    · exact ⟨rfl, rfl, id⟩
    · split
      · exact ⟨rfl, rfl, id⟩
      · exact fault _ rfl _
  · exact fault _ rfl _
  · exact ⟨rfl, rfl, id⟩

theorem heard_foldl : ∀ (cs : List LineChar) (s : State), cs ≠ [] → Heard s (cs.foldl hostChar s)
  | [], _, h => absurd rfl h
  | [c], s, _ => heard_hostChar s c
  | c :: d :: cs, s, _ =>
    have h := heard_hostChar s c
    have k := heard_foldl (d :: cs) (hostChar s c) nofun
    ⟨k.cause.trans h.cause, k.inTime, k.waits ∘ h.waits⟩

theorem hostGap_cause : (hostGap s).cause = s.cause := by
  unfold hostGap
  split
  · exact sendIfIdle_cause _
  · rfl

theorem hostGap_waits (h : s.Waits) : (hostGap s).Waits := by
  unfold hostGap
  split
  · exact linkFault_waits _
  · exact h

theorem heard_hostChars {cs : List LineChar} (h : cs ≠ []) (s : State) : Heard s (hostChars cs s) :=
  have k := heard_foldl cs (hostGap s) h
  ⟨k.cause.trans hostGap_cause, k.inTime, fun hw => k.waits (hostGap_waits hw)⟩

/-- What the first characters of a command leave is what the others meet. -/
theorem event_hostChars_append {front : List LineChar} (hw : s.Waits) (hf : front ≠ []) (back : List LineChar) :
    event false (hostChars (front ++ back)) s = event false (hostChars back) (event false (hostChars front) s) := by
  obtain ⟨hc, ht, hk⟩ := heard_hostChars hf (s.withCause false)
  have hgap : hostGap (hostChars front (s.withCause false)) = hostChars front (s.withCause false) :=
    hostGap_inTime (.inr (ht ▸ Nat.le_add_right _ _))
  rw [event_of_waits hc (hk hw), event, event, withCause_of_cause (b := false) hc, hostChars, List.foldl_append]
  unfold hostChars at hgap ⊢
  rw [hgap]

end chars

section port
variable {s : State} {p : PortNo}

/-! A fault SILENT that the last poll has left due, before a further event of the port (R100, log 10) -/

theorem sendIdle_waits (h : s.Waits) : (sendIdle p s).Waits := by
  unfold sendIdle
  split
  · exact h
  · exact h

theorem portReady_waits (h : s.Waits) : (portReady p s).Waits := by
  unfold portReady silenceFault
  split
  · exact sendIfIdle_idle _
  · exact sendIdle_waits h

theorem setChange_cause (f : ChangeFlag) : (setChange f p s).cause = s.cause := by
  unfold setChange
  dsimp only
  split
  · rfl
  · rfl

theorem leaveEnabled_cause (was : PortState) : (leaveEnabled was p s).cause = s.cause := by
  unfold leaveEnabled
  split
  · exact setChange_cause .enable
  · rfl

theorem sendIdle_cause : (sendIdle p s).cause = s.cause := by
  unfold sendIdle
  split
  · rfl
  · rfl

theorem portReady_cause : (portReady p s).cause = s.cause := by
  rw [portReady, silenceFault]
  split
  · exact (sendIfIdle_cause _).trans ((leaveEnabled_cause _).trans ((setChange_cause _).trans sendIdle_cause))
  · exact sendIdle_cause

theorem Port.setFlag_quiet (q : Port) (f : ChangeFlag) : (q.setFlag f).quiet = q.quiet := by cases f <;> rfl

theorem leaveEnabled_quiet (was : PortState) : (leaveEnabled was p s).ports[p].quiet = s.ports[p].quiet := by
  unfold leaveEnabled
  split
  · calc (setChange .enable p s).ports[p].quiet
      _ = (s.ports[p].setFlag .enable).quiet := by rw [setChange_port]
      _ = s.ports[p].quiet := Port.setFlag_quiet _ _
  · rfl

/-- A port in FAULTED has nothing due. -/
theorem enterFaulted_quiet (c : FaultCause) : (enterFaulted c p s).ports[p].quiet = true := by
  rw [enterFaulted, leaveEnabled_quiet, setChange_port, Port.setFlag_quiet, updatePort_eq, withPort_self]
  rfl

theorem sendIdle_releaseDue : (sendIdle p s).ports[p].releaseDue = false := by
  unfold sendIdle
  split
  next => exact congrArg Port.releaseDue (withPort_self s p _)
  next h => exact Bool.eq_false_iff.2 h

theorem quiet_of_portReady : (portReady p s).ports[p].quiet = true := by
  rw [portReady, silenceFault]
  split
  next => simpa using enterFaulted_quiet (p := p) (s := sendIdle p s) .silent
  next h => simp only [Port.quiet, sendIdle_releaseDue, Bool.eq_false_iff.2 h]; rfl

/-- What the last poll left due is what a further event of the port finds done. -/
theorem portEvent_portReady (f : State → State) :
    portEvent p f s = portEvent p f (portReady p (s.withCause false)) := by
  have hc : (portReady p (s.withCause false)).cause = false := portReady_cause
  rw [portEvent, portEvent, event, event, withCause_of_cause (b := false) hc, portReady_quiet quiet_of_portReady]

theorem silenceFault_first {t : State} (hw : s.Waits) (h : exec (.silenceFault p) s = .next t) (chars : List LineChar) :
    ∀ c ∈ [Instr.presenceFound p, .presenceLost p, .holdOffEnd p, .overcurrent p, .poll p, .hello p chars,
      .dataReport p chars], exec c s = exec c t := by
  have ht : t = portReady p (s.withCause false) := calc
    t = event false (portReady p) s := (Host.Outcome.next.inj h).symm
    _ = portReady p (s.withCause false) := event_of_waits portReady_cause (portReady_waits hw)
  have first (f : State → State) : ran (portEvent p f s) = ran (portEvent p f t) :=
    congrArg ran ((portEvent_portReady f).trans (by rw [ht]))
  intro c hc
  simp only [List.mem_cons, List.not_mem_nil, or_false] at hc
  rcases hc with rfl | rfl | rfl | rfl | rfl | rfl | rfl
  all_goals exact first _

end port

end Sys2Proof.Machine

namespace Sys2Proof.Machine

section expiry
variable {s : State} {n : TimerNo}

/-! An expiry, before the frame start that finds it due (R145, R151, log 10) -/

theorem sendNotice_withMail (k : Notice) (rest : List Notice) (m : Mail) :
    sendNotice k rest (s.withMail m) = (sendNotice k rest s).withMail m := by cases k <;> rfl

/-- No message plays a part in the transmitter's choice. -/
theorem sendIfIdle_withMail (m : Mail) : sendIfIdle (s.withMail m) = (sendIfIdle s).withMail m := by
  unfold sendIfIdle
  dsimp only [State.withMail_link]
  split
  · rfl
  · exact sendNotice_withMail _ _ _
  · rfl
  · rfl

/-- The state with other frame starts waiting at the Cue Monitor. -/
abbrev State.withCueFrames (s : State) (l : List (Msg Half)) : State := s.withMail { s.mail with cueFrames := l }

theorem sendIfIdle_withCueFrames (l : List (Msg Half)) :
    sendIfIdle (s.withCueFrames l) = (sendIfIdle s).withCueFrames l := by
  rw [sendIfIdle_withMail, State.withCueFrames, sendIfIdle_mail]

theorem endFlash_withCueFrames (l : List (Msg Half)) : endFlash (s.withCueFrames l) = (endFlash s).withCueFrames l := by
  unfold endFlash
  rw [apply_ite (State.withCueFrames · l)]
  rfl

theorem endCueFlag_withCueFrames (l : List (Msg Half)) :
    endCueFlag (s.withCueFrames l) = (endCueFlag s).withCueFrames l := by
  unfold endCueFlag
  rw [apply_ite (State.withCueFrames · l)]
  rfl

theorem expireTimer_withCueFrames (n : TimerNo) (l : List (Msg Half)) :
    expireTimer n (s.withCueFrames l) = (expireTimer n s).withCueFrames l := by
  rw [expireTimer_eq, expireTimer_eq]
  rfl

theorem expireIfDue_withCueFrames (n : TimerNo) (l : List (Msg Half)) :
    expireIfDue (s.withCueFrames l) n = (expireIfDue s n).withCueFrames l := by
  unfold expireIfDue
  rw [apply_ite (State.withCueFrames · l), expireTimer_withCueFrames, sendIfIdle_withCueFrames]
  rfl

/-- The rest of the last frame start is finished whatever frame starts wait. -/
theorem finishCueWork_withCueFrames (l : List (Msg Half)) :
    finishCueWork (s.withCueFrames l) = (finishCueWork s).withCueFrames l := by
  rw [finishCueWork, endFlash_withCueFrames, endCueFlag_withCueFrames]
  exact List.foldl_hom (State.withCueFrames · l) (fun u m => (expireIfDue_withCueFrames (s := u) m l))

theorem sendIfIdle_dueFrom {k : Nat} (h : s.cues.DueFrom k) : (sendIfIdle s).cues.DueFrom k := by
  rcases sendIfIdle_cases s with e | ⟨m, rest, -, -, e⟩ | ⟨r, rest, -, -, -, e⟩
  · rwa [e]
  · rw [e, sendNotice_cues]
    split
    · exact ⟨h.flash, h.flag, h.sorted, h.from_k⟩
    · exact h
  · rw [e]
    exact h

/-- After an expiry only those of higher timers are due. -/
theorem expireTimer_dueFrom {rest : List TimerNo} (he : s.cues.expiring = n :: rest) (h : s.cues.DueFrom 0) :
    (expireTimer n s).cues.DueFrom (n.val + 1) := by
  obtain ⟨hn, hs⟩ := List.pairwise_cons.1 (he ▸ h.sorted)
  have hr : (s.cues.expire n).expiring = rest := congrArg List.tail he
  rw [expireTimer_eq]
  exact passExpiry_dueFrom n ⟨h.flash, h.flag, hr ▸ hs, hr ▸ hn⟩

theorem foldl_expireIfDue_none {l : List TimerNo} (h : ∀ m ∈ l, s.cues.expiring.head? ≠ some m) :
    l.foldl expireIfDue s = s := by
  induction l with
  | nil => rfl
  | cons m l ih =>
    obtain ⟨hm, hl⟩ := List.forall_mem_cons.1 h
    rw [List.foldl_cons, expireIfDue, if_neg hm, ih hl]

/-- With the counts ended, the pass over the timers begins with the first expiry due. -/
theorem foldl_expireIfDue_first {rest : List TimerNo} (he : s.cues.expiring = n :: rest) (h : s.cues.DueFrom 0) :
    (List.finRange 6).foldl expireIfDue s = (List.finRange 6).foldl expireIfDue (sendIfIdle (expireTimer n s)) := by
  obtain ⟨below, above, hl⟩ := List.append_of_mem (List.mem_finRange n)
  have hlt : ∀ m ∈ below, m < n := fun m hm =>
    (List.pairwise_append.1 (hl ▸ List.pairwise_lt_finRange 6)).2.2 m hm n List.mem_cons_self
  have ht : (sendIfIdle (expireTimer n s)).cues.DueFrom (n.val + 1) := sendIfIdle_dueFrom (expireTimer_dueFrom he h)
  have later {m : TimerNo} (hm : m ≤ n) : (sendIfIdle (expireTimer n s)).cues.expiring.head? ≠ some m := fun e =>
    not_le.2 (Fin.lt_def.2 (ht.from_k m (List.mem_of_mem_head? e))) hm
  have hn : s.cues.expiring.head? = some n := by rw [he]; rfl
  have skip : below.foldl expireIfDue s = s :=
    foldl_expireIfDue_none fun m hm e => (hlt m hm).ne (Option.some.inj (e.symm.trans hn))
  have skip' : below.foldl expireIfDue (sendIfIdle (expireTimer n s)) = sendIfIdle (expireTimer n s) :=
    foldl_expireIfDue_none fun m hm => later (hlt m hm).le
  rw [hl, List.foldl_append, List.foldl_append, skip, skip', List.foldl_cons, List.foldl_cons]
  rw [expireIfDue, if_pos hn, expireIfDue, if_neg (later le_rfl)]

/-- The state whose counts have ended is one in which nothing but expiries is due. -/
theorem endCounts_dueFrom (h : CueInv s.cues) : (endCueFlag (endFlash s)).cues.DueFrom 0 := by
  rw [(endCueFlag_cues _).1, (endFlash_cues _).1]
  exact ⟨rfl, rfl, h.expiring, fun m _ => Nat.zero_le _⟩

theorem endCounts_none {k : Nat} (h : s.cues.DueFrom k) : endCueFlag (endFlash s) = s := by
  have hf : endFlash s = s := if_neg (Bool.eq_false_iff.1 h.flash)
  rw [hf]
  exact if_neg (Bool.eq_false_iff.1 h.flag)

theorem endCounts_expiring : (endCueFlag (endFlash s)).cues.expiring = s.cues.expiring := by
  rw [(endCueFlag_cues _).1, (endFlash_cues _).1]

/-- What is left of the last frame start begins with the first expiry due. -/
theorem finishCueWork_expiry {rest : List TimerNo} (hi : CueInv s.cues) (he : s.cues.expiring = n :: rest) :
    finishCueWork s = finishCueWork (sendIfIdle (expireTimer n (endCueFlag (endFlash s)))) := by
  have hw := endCounts_dueFrom hi
  have hn := endCounts_expiring.trans he
  rw [finishCueWork, foldl_expireIfDue_first hn hw, finishCueWork,
    endCounts_none (sendIfIdle_dueFrom (expireTimer_dueFrom hn hw))]

theorem expireTimer_cause : (expireTimer n s).cause = s.cause := by
  rw [expireTimer_eq]
  rfl

theorem endCounts_keepCause : (endCueFlag (endFlash s)).cause = s.cause :=
  (endCueFlag_cues _).2.1.trans (endFlash_cues _).2.1

theorem expiry_cueFrames : (expireTimer n (endCueFlag (endFlash s))).mail.cueFrames = s.mail.cueFrames := by
  have h : expireTimer n (endCueFlag (endFlash (s.withCueFrames s.mail.cueFrames))) =
      (expireTimer n (endCueFlag (endFlash s))).withCueFrames s.mail.cueFrames := by
    rw [endFlash_withCueFrames, endCueFlag_withCueFrames, expireTimer_withCueFrames]
  exact congrArg (·.mail.cueFrames) h

/-- A frame start at the Cue Monitor, as it stands at the head of its channel. -/
theorem exec_cueFrames {m : Msg Half} {rest : List (Msg Half)} (hm : s.mail.cueFrames = m :: rest) :
    exec .cueFrameStart s =
      .next (event m.req (fun u => cueFrame (drainCueMail (finishCueWork u))) (s.withCueFrames rest)) := by
  refine congrArg Host.Outcome.next ?_
  rw [hm, takeHead_some rfl]
  rfl

/-- The expiry next due, with the ends of the counts that stand before it. -/
theorem exec_expiryDue (he : s.cues.expiring.head? = some n) :
    exec (.timerExpiry n) s = .next (sendIfIdle (expireTimer n (endCueFlag (endFlash (s.withCause false))))) := by
  have hc : (expireTimer n (endCueFlag (endFlash (s.withCause false)))).cause = false :=
    expireTimer_cause.trans endCounts_keepCause
  exact congrArg Host.Outcome.next ((if_pos he).trans (congrArg sendIfIdle (withCause_of_cause hc)))

theorem timerExpiry_first {t : State} {x : Half} {rest : List (Msg Half)} (hi : CueInv s.cues)
    (he : s.cues.expiring.head? = some n) (hm : s.mail.cueFrames = { req := false, body := x } :: rest)
    (h : exec (.timerExpiry n) s = .next t) : exec .cueFrameStart s = exec .cueFrameStart t := by
  obtain ⟨due, hd⟩ := List.head?_eq_some_iff.1 he
  have ht : sendIfIdle (expireTimer n (endCueFlag (endFlash (s.withCause false)))) = t :=
    Host.Outcome.next.inj ((exec_expiryDue he).symm.trans h)
  have hc : t.cause = false := by
    rw [← ht, sendIfIdle_cause]
    exact expireTimer_cause.trans endCounts_keepCause
  have hf : t.mail.cueFrames = s.mail.cueFrames := by
    rw [← ht, sendIfIdle_mail]
    exact expiry_cueFrames (s := s.withCause false)
  have hfin : finishCueWork ((s.withCueFrames rest).withCause false) =
      finishCueWork ((t.withCueFrames rest).withCause false) := calc
    finishCueWork ((s.withCause false).withCueFrames rest)
    _ = (finishCueWork (s.withCause false)).withCueFrames rest := finishCueWork_withCueFrames rest
    _ = (finishCueWork t).withCueFrames rest := by rw [finishCueWork_expiry (s := s.withCause false) hi hd, ht]
    _ = finishCueWork (t.withCueFrames rest) := (finishCueWork_withCueFrames rest).symm
    _ = finishCueWork ((t.withCueFrames rest).withCause false) := by
      rw [withCause_of_cause (s := t.withCueFrames rest) hc]
  rw [exec_cueFrames hm, exec_cueFrames (hf.trans hm), event, event, hfin]

end expiry
end Sys2Proof.Machine

namespace Sys2Proof.Machine

section reports
variable {s : State}

/-! The reports that wait, before what the engine takes with them (R40, logs 8 and 50) -/

/-- The state with other frame starts, Stops and holder's inputs waiting at the engine. -/
abbrev State.withInputs (s : State) (fs : List (Msg Half)) (ss : List (Msg Unit))
    (is : List (Msg HolderInput)) : State :=
  s.withMail { s.mail with engineFrames := fs, engineStops := ss, engineInput := is }

variable (fs : List (Msg Half)) (ss : List (Msg Unit)) (is : List (Msg HolderInput))

theorem enterHalted_withInputs (c : HaltCause) :
    enterHalted c (s.withInputs fs ss is) = (enterHalted c s).withInputs fs ss is := by
  unfold enterHalted
  rw [apply_ite (State.withInputs · fs ss is)]
  rfl

theorem endGoalIf_withInputs (gone : Nat → Bool) :
    endGoalIf gone (s.withInputs fs ss is) = (endGoalIf gone s).withInputs fs ss is := by
  cases h : s.engine.goal with
  | none => simp only [endGoalIf, State.withMail_engine, h]
  | some g =>
    simp only [endGoalIf, State.withMail_engine, h, enterHalted_withInputs]
    exact (apply_ite (State.withInputs · fs ss is) _ _ _).symm

theorem designate_withInputs : designate (s.withInputs fs ss is) = (designate s).withInputs fs ss is := by
  cases h : s.engine.live with
  | none => simp only [designate, State.withMail_engine, h]; rfl
  | some p =>
    cases hk : s.script.locate p.block with
    | none => simp only [designate, State.withMail_engine, State.withMail_script, h, hk]
    | some x =>
      simp only [designate, State.withMail_engine, State.withMail_script, h, hk,
        apply_ite (State.withInputs · fs ss is)]
      rfl

theorem jump_withInputs (p : Option Pos) : jump p (s.withInputs fs ss is) = (jump p s).withInputs fs ss is :=
  congrArg sendJumped (designate_withInputs (s := setLive p s) fs ss is)

theorem takeDelete_withInputs (k : Slot) (first : Nat) (run : List Nat) :
    takeDelete k first run (s.withInputs fs ss is) = (takeDelete k first run s).withInputs fs ss is := by
  have hp : previewAfterDelete k first run (s.withInputs fs ss is) =
      (previewAfterDelete k first run s).withInputs fs ss is := by
    cases h : s.engine.preview with
    | none => simp only [previewAfterDelete, State.withMail_engine, h]
    | some b =>
      simp only [previewAfterDelete, State.withMail_engine, h]
      rw [apply_ite (State.withInputs · fs ss is)]
      rfl
  have hl (u : State) : liveAfterDelete k first run (u.withInputs fs ss is) =
      (liveAfterDelete k first run u).withInputs fs ss is := by
    cases h : u.engine.live with
    | none => simp only [liveAfterDelete, State.withMail_engine, h]
    | some p =>
      cases hk : u.script.afterRun k first with
      | none => simp only [liveAfterDelete, State.withMail_engine, State.withMail_script, h, hk, ite_self]
      | some b =>
        simp only [liveAfterDelete, State.withMail_engine, State.withMail_script, h, hk, jump_withInputs]
        exact (apply_ite (State.withInputs · fs ss is) _ _ _).symm
  rw [takeDelete, hp, hl, endGoalIf_withInputs, takeDelete]

theorem takeIneligible_withInputs (k : Slot) (index : Nat) :
    takeIneligible k index (s.withInputs fs ss is) = (takeIneligible k index s).withInputs fs ss is := by
  have h : (if s.engine.live.isSome ∧ s.engine.liveSlot = some k then
        jump (relocated s.script index) (enterHalted .scriptChange (s.withInputs fs ss is))
      else s.withInputs fs ss is) =
      (if s.engine.live.isSome ∧ s.engine.liveSlot = some k then
        jump (relocated s.script index) (enterHalted .scriptChange s) else s).withInputs fs ss is := by
    rw [enterHalted_withInputs, jump_withInputs, apply_ite (State.withInputs · fs ss is)]
  exact (congrArg (fun u => endGoalIf (fun b => (u.script.locate b).map (·.1) = some k) u) h).trans
    (endGoalIf_withInputs _ _ _ _)

theorem takeEligible_withInputs :
    takeEligible (s.withInputs fs ss is) = (takeEligible s).withInputs fs ss is := by
  cases h : s.engine.live with
  | some p => simp only [takeEligible, State.withMail_engine, h]
  | none =>
    cases hp : (s.script.firstEligible s.script.order).bind s.script.firstLine with
    | none => simp only [takeEligible, State.withMail_engine, State.withMail_script, h, hp]
    | some p =>
      simp only [takeEligible, State.withMail_engine, State.withMail_script, h, hp]
      exact jump_withInputs _ _ _ _

theorem takeReport_withInputs (r : ScriptReport) :
    takeReport r (s.withInputs fs ss is) = (takeReport r s).withInputs fs ss is :=
  match r with
  | .insert _ _ _ => rfl
  | .delete _ _ _ => takeDelete_withInputs _ _ _ _ _ _
  | .ineligible _ _ => takeIneligible_withInputs _ _ _ _ _
  | .eligible _ => takeEligible_withInputs _ _ _
  | .orderChanged => rfl

theorem takeWaiting_withInputs (m : Msg ScriptReport) :
    takeWaiting (s.withInputs fs ss is) m = (takeWaiting s m).withInputs fs ss is :=
  congrArg (State.withCause · s.cause) (takeReport_withInputs (s := s.withCause m.req) fs ss is m.body)

theorem takeReports_withInputs : takeReports (s.withInputs fs ss is) = (takeReports s).withInputs fs ss is := by
  have h (u : State) (m : Msg ScriptReport) := takeWaiting_withInputs (s := u) fs ss is m
  exact List.foldl_hom (State.withInputs · fs ss is) (g₁ := takeWaiting) (g₂ := takeWaiting) h
    (l := s.mail.engineReports) (init := s.withReports [])

theorem engineReady_withInputs : engineReady (s.withInputs fs ss is) = (engineReady s).withInputs fs ss is := by
  cases h : s.mail.engineReports with
  | nil => rw [engineReady_none h, engineReady_none (s := s.withInputs fs ss is) h]
  | cons m rest =>
    rw [engineReady_some h, engineReady_some (s := s.withInputs fs ss is) h, takeReports_withInputs,
      sendIfIdle_withMail, State.withInputs, sendIfIdle_mail]

/-- Taking the reports leaves the engine's other channels. -/
theorem engineReady_inputs : (engineReady s).mail.engineFrames = s.mail.engineFrames ∧
    (engineReady s).mail.engineStops = s.mail.engineStops ∧ (engineReady s).mail.engineInput = s.mail.engineInput := by
  have h : engineReady s = (engineReady s).withInputs s.mail.engineFrames s.mail.engineStops s.mail.engineInput :=
    engineReady_withInputs s.mail.engineFrames s.mail.engineStops s.mail.engineInput
  rw [h]
  exact ⟨rfl, rfl, rfl⟩

/-- An event of the engine finds the same whether the reports were taken before it or with it. -/
theorem event_engineReady (req : Bool) (f : State → State) :
    event req (fun u => f (engineReady u)) (s.withInputs fs ss is) =
      event req (fun u => f (engineReady u)) (((engineReady s).withCause false).withInputs fs ss is) := by
  have h : engineReady ((s.withInputs fs ss is).withCause req) =
      engineReady ((((engineReady s).withCause false).withInputs fs ss is).withCause req) := calc
    _ = ((engineReady s).withInputs fs ss is).withCause req := by rw [engineReady_withCause, engineReady_withInputs]
    _ = _ := (engineReady_none (s := (((engineReady s).withCause false).withInputs fs ss is).withCause req)
      engineReady_engineReports).symm
  rw [event, event, h]

/-- The same for a message at the head of a channel. -/
theorem takeHead_engineReady {α β : Type} {c c' rest : List (Msg α)} {m : Msg α} {x : β} {want : α → Option β}
    {drop : List (Msg α) → State → State} {f : β → State → State} {fs : List (Msg Half)} {ss : List (Msg Unit)}
    {is : List (Msg HolderInput)} (hc : c = m :: rest) (hc' : c' = c) (hw : want m.body = some x)
    (hd : drop rest s = s.withInputs fs ss is)
    (hd' : drop rest ((engineReady s).withCause false) = ((engineReady s).withCause false).withInputs fs ss is) :
    takeHead c want drop (fun x u => f x (engineReady u)) s =
      takeHead c' want drop (fun x u => f x (engineReady u)) ((engineReady s).withCause false) := by
  rw [hc', hc, takeHead_some hw, takeHead_some hw, hd, hd']
  exact event_engineReady fs ss is m.req (f x)

theorem reports_first {t : State} (hr : s.mail.engineReports ≠ [])
    (ht : t = sendIfIdle ((takeReports s).withCause false)) :
    (s.mail.engineFrames ≠ [] → exec .frameAdvance s = exec .frameAdvance t) ∧
    (s.mail.engineStops ≠ [] → exec .stopExpiryAction s = exec .stopExpiryAction t) ∧
    (∀ m rest, s.mail.engineInput = m :: rest →
      let c : Instr := match m.body with
        | .setTarget _ => .setTarget
        | .key => .startStopKey
        | .jog _ => .jog
      exec c s = exec c t) := by
  obtain ⟨report, others, hreports⟩ := List.exists_cons_of_ne_nil hr
  obtain rfl : t = (engineReady s).withCause false := by rw [ht, engineReady_some hreports, sendIfIdle_withCause]
  obtain ⟨hframes, hstops, hinput⟩ := engineReady_inputs (s := s)
  refine ⟨fun h => ?_, fun h => ?_, fun m rest hm => ?_⟩
  · obtain ⟨m, rest, hm⟩ := List.exists_cons_of_ne_nil h
    exact congrArg Host.Outcome.next (takeHead_engineReady (f := frameAdvance) hm hframes rfl
      (congrArg₂ (s.withInputs rest) hstops.symm hinput.symm) rfl)
  · obtain ⟨m, rest, hm⟩ := List.exists_cons_of_ne_nil h
    exact congrArg Host.Outcome.next (takeHead_engineReady (f := fun _ u => u.withEngine u.engine.stop) hm hstops rfl
      (congrArg₂ (s.withInputs · rest) hframes.symm hinput.symm) rfl)
  · have taken {want : HolderInput → Option (State → State)} {f : State → State} (hw : want m.body = some f) :
        ran (takeInputIf want s) = ran (takeInputIf want ((engineReady s).withCause false)) :=
      congrArg Host.Outcome.next (takeHead_engineReady (f := fun f => f) hm hinput hw
        (congrArg₂ (s.withInputs · · rest) hframes.symm hstops.symm) rfl)
    obtain ⟨req, body⟩ := m
    cases body
    case setTarget => exact taken rfl
    case key => exact taken rfl
    case jog => exact taken rfl

end reports

theorem stepsInTurn_claim : Claims.StepsInTurn := by
  intro s t hw
  refine ⟨fun front back hf h => ?_, fun p chars h => silenceFault_first hw h chars,
    fun n x rest hi he hm h => timerExpiry_first hi he hm h, reports_first⟩
  obtain rfl : event false (hostChars front) s = t := Host.Outcome.next.inj h
  have first := congrArg ran (event_hostChars_append hw hf back)
  exact ⟨first, first⟩

/-- Settles O10: the transmitter takes notices before replies and a waiting one begins at the end of a step; a step due
before another leaves what the other would have made of the part; and the bodies of the notices. -/
theorem transmission : Obligations.Transmission :=
  ⟨transmitterChoice_claim, sentAtOnce_claim, stepsInTurn_claim, noticeBodies_claim⟩

end Sys2Proof.Machine
